-- ==== Sys2Proof/Word.lean ====
section
/-! DEFINITION. Word types. A Frame Buffer slot is a byte and a command word has 32 bits (rules R10, R21, R71);
every other quantity of the spec is a natural number (R10: nothing in this block is signed). -/

namespace Sys2Proof

/-- A slot of the Frame Buffer, 8 bits (`SLOT_BITS`, R8, R21). -/
abbrev Byte := BitVec 8

/-- A command word, a response header or a configuration latch, 32 bits (R71, R77, R32). -/
abbrev Word := BitVec 32

end Sys2Proof
end

