-- ==== Sys2Proof/Config.lean ====
section
/-! DEFINITION. What is fixed for the machine: the constants of rule R8 and the parameters of rule R9, with the identity a model carries (R2);
the opaque data the spec only forwards (R32 `LINE_CFG`, R85 descriptors); and the free values, which the spec calls draws of the environment
and interleaving of the agents (R38, U2, U3, U9, U18, U24). -/

namespace Sys2Proof

/-- `LINE_CFG` (R32, R9): baud rate, framing and flow control, of which the spec gives no value and which no rule reads.
Each part is an uninterpreted code. -/
structure LineCfg where
  baud    : Nat
  framing : Nat
  flow    : Nat
  deriving DecidableEq, Repr, Inhabited

/-- A text whose character set the spec does not give (R85): a list of uninterpreted character codes. -/
abbrev Text := List Nat

/-- A device descriptor (R85): the four named projections and one opaque remainder. The block only forwards it. -/
structure Descriptor where
  description  : Text
  serialNumber : Text
  /-- An enumerated vendor tag. The spec lists none, so it is an uninterpreted code. -/
  deviceType   : Nat
  portOpen     : Bool
  other        : List Byte
  deriving DecidableEq, Repr, Inhabited

/-- What the environment decides about one step of `SEQ` (R38): how long it takes (R41, R42) and what the transport answers to
the one primitive it may issue (R91, R227). Every value of every field is possible. -/
structure Draw where
  /-- The time the step takes, in microseconds (R41). -/
  elapsed   : Nat
  /-- `true` when the primitive answers `Ok`, `false` when it answers `Err` (R91). R93 overrides it for `T_OPEN`. -/
  answersOk : Bool
  /-- The list an `Ok` answer of `T_ENUMERATE` carries (R103). -/
  devices   : List Descriptor
  /-- The bytes an `Ok` answer of `T_READ` carries (R99). -/
  received  : List Byte
  deriving DecidableEq, Repr, Inhabited

/-- One move of an agent (R7). -/
inductive Move where
  /-- `SEQ` takes its next step. -/
  | seq
  /-- `HostSend(w)` (R191). A word is the number its bits spell, since its width `CMD_BITS` is a parameter (R9). -/
  | send (w : Nat)
  /-- The host's receive step (R206). -/
  | receive
  /-- The host gives up its sending endpoint (R208). -/
  | closeTx
  /-- The host gives up its receiving endpoint (R208). -/
  | closeRx
  /-- `CLK` adds `d` microseconds to `NOW` (R41). -/
  | tick (d : Nat)
  /-- Another instance opens device `i` on the same transport (R43, R244). -/
  | otherOpen (i : Word)
  /-- Another instance closes device `i` on the same transport (R43, R244). -/
  | otherClose (i : Word)
  deriving DecidableEq, Repr, Inhabited

/-- The widths of format CW (R9, R71, R72): a command word has `cmdBits` bits, its index field `indexBits`. -/
structure CmdFormat where
  cmdBits   : Nat
  indexBits : Nat
  deriving DecidableEq, Repr, Inhabited

/-- The parameters of R9 that rules of the block read, the times in microseconds. They are a field of State, so that every claim
holds for every value of them (R14: a parameter first and a number second). -/
structure Params where
  settleUs          : Nat
  coarseThresholdUs : Nat
  breakHoldUs       : Nat
  mabHoldUs         : Nat
  yieldUs           : Nat
  /-- `CMD_BITS` and `INDEX_BITS`. -/
  format            : CmdFormat
  /-- `FINAL_PREAMBLE` (D25, U21): whether a preamble precedes the final all-zero frame. -/
  finalPreamble     : Bool
  deriving DecidableEq, Repr, Inhabited

/-- The inputs of reset: the latches of R32. -/
structure Latches where
  devIndex    : Word
  freq        : Word
  rdTimeoutMs : Word
  wrTimeoutMs : Word
  lineCfg     : LineCfg
  deriving DecidableEq, Repr, Inhabited

/-- `NSLOTS` (R8): slots of the Frame Buffer. -/
def Config.nslots : Nat := 513

/-- `CH_MIN` (R8). -/
def Config.chMin : Nat := 1

/-- `CH_MAX` (R8, conflict C1: 512 is valid). -/
def Config.chMax : Nat := 512

/-- `START_CODE` (R8): slot 0 of standard DMX. -/
def Config.startCode : Byte := 0#8

/-- The widths this spec takes (decisions D10, D39). -/
def Config.format : CmdFormat := { cmdBits := 32, indexBits := 16 }

/-- The values this spec takes for the parameters of R9 (decisions D2 to D6, D10, D25, D39). -/
def Config.params : Params :=
  { settleUs := 1000000, coarseThresholdUs := 3000000, breakHoldUs := 110, mabHoldUs := 16, yieldUs := 1000,
    format := Config.format, finalPreamble := false }

/-- The default of `FREQ` (R9, R32, decision D7). -/
def Config.freqDefault : Word := 40000#32

/-- The latches `State.reset` is given: `FREQ` has its default. `DEV_INDEX`, the timeouts and `LINE_CFG` have no default
in the spec, and zero is the model's own value for them: DESIGN CHOICE, log entry 3. -/
def Config.latches : Latches :=
  { devIndex := 0#32, freq := Config.freqDefault, rdTimeoutMs := 0#32, wrTimeoutMs := 0#32, lineCfg := ⟨0, 0, 0⟩ }

/-- FREE VALUE (log entry 1): the `n`-th move past the end of the schedule State lists (R38, U18). A run may be endless and so may be
what the host sends in it (R271, U24); it has no body, so nothing can be proved of which agent moves. -/
opaque Config.freeMove : Nat → Move

/-- FREE VALUE (log entry 1): the draw of the `n`-th step of `SEQ` for which State lists no draw (R38, U2, U3, U9). It has no
body, so nothing can be proved of what it answers. -/
opaque Config.freeDraw : Nat → Draw

/-- OPEN PARAMETER `DescriptorCodec` (R9, R85, D13): how a descriptor is laid out in bits after the response header. It has no body. -/
opaque Config.descriptorCodec : Descriptor → List Byte

/-! ## Identity -/

/-- The parameters the source fixes, by the table of R8. -/
structure FixedParams where
  nslots        : Nat
  nchan         : Nat
  startCode     : Byte
  slotBits      : Nat
  chMin         : Nat
  chMax         : Nat
  loopStates    : Nat
  cycleSteps    : Nat
  commandKinds  : Nat
  responseKinds : Nat
  timingClasses : Nat
  deriving DecidableEq, Repr

/-- The values of R8. -/
def Config.fixed : FixedParams :=
  { nslots := Config.nslots, nchan := 512, startCode := Config.startCode, slotBits := 8, chMin := Config.chMin, chMax := Config.chMax,
    loopStates := 4, cycleSteps := 8, commandKinds := 5, responseKinds := 1, timingClasses := 3 }

/-- The parameters of R9: those rules of the block read, the range and default of `FREQ`, the arguments of the instance, and the open
codec of descriptors. -/
structure OpenParams where
  params          : Params
  freqMin         : Nat
  freqMax         : Nat
  freqDefault     : Word
  latches         : Latches
  descriptorCodec : Descriptor → List Byte

/-- The identity of a block (R2): the name, and the parameter record of R8 and R9. There are no options and no extensions. -/
structure Identity where
  name  : String
  fixed : FixedParams
  taken : OpenParams

/-- The identity of the block built with the parameters `p` and created with the latches `c` (R2). -/
def Config.identity (p : Params) (c : Latches) : Identity :=
  { name := "open_dmx framer", fixed := Config.fixed,
    taken := { params := p, freqMin := 1, freqMax := 4294967295, freqDefault := Config.freqDefault, latches := c,
               descriptorCodec := Config.descriptorCodec } }

end Sys2Proof
end

