-- ==== Sys2Proof/Syntax.lean ====
section
/-! DEFINITION. The messages: the five Command Messages of spec/opcode_table.json (R70, R74) and the one Response Message (R205). -/

namespace Sys2Proof

/-- A Command Message, one constructor per row of the opcode table (R74). -/
inductive Instr where
  /-- `SetChannel(index, value)` (R200). The index is wider than its field, as R73 allows: WellFormed bounds it. -/
  | setChannel (index : Nat) (value : Byte)
  /-- `Stop` (R201). -/
  | stop
  /-- `Reset` (R202). -/
  | reset
  /-- `ClearFrame` (R203). -/
  | clearFrame
  /-- `ListDevices` (R204). -/
  | listDevices
  deriving DecidableEq, Repr, Inhabited

/-- The Response Message (R205), the only asynchronous reply type. -/
inductive Response where
  | deviceList (list : List Descriptor)
  deriving DecidableEq, Repr, Inhabited

end Sys2Proof
end

