-- ==== Sys2Proof/WellFormed.lean ====
section
/-! DEFINITION. The static check on a Command Message: its operands fit their fields of format CW (R72, R73). -/

namespace Sys2Proof

/-- `INDEX` is a field of `INDEX_BITS` bits (R9, R73): a larger abstract index cannot be sent. `VALUE` is a byte by its type. -/
def Instr.wfIn (f : CmdFormat) : Instr → Bool
  | .setChannel index _ => decide (index < 2 ^ f.indexBits)
  | .stop => true
  | .reset => true
  | .clearFrame => true
  | .listDevices => true

/-- The check at the widths the spec takes: an index of 16 bits. -/
def Instr.wf (i : Instr) : Bool := i.wfIn Config.format

end Sys2Proof
end

