-- ==== Sys2Proof/Decode.lean ====
section
/-! DEFINITION. The codec of spec file 30: the decoder of command words (R75, R76, R78), the encoder (R83), the response
header (R77) and the textual form of messages (R81). -/

namespace Sys2Proof

/-- Why a word is no Command Message (R78). -/
inductive Invalid where
  /-- `TAG` in 0x05 to 0xFF. -/
  | reservedTag
  /-- `TAG` in 0x01 to 0x04 with a non-zero operand bit (R76). -/
  | operandBits
  /-- A number of more than `CMD_BITS` bits: no word of the port (R71). -/
  | tooWide
  deriving DecidableEq, Repr

/-! ## Format CW at the widths of R9

`w = TAG ++ INDEX ++ VALUE` (R72): `VALUE` is the low 8 bits, `INDEX` the `indexBits` above it, `TAG` the rest. At 32 and 16 bits that is
`TAG = w[31:24]`, `INDEX = w[23:8]`, `VALUE = w[7:0]`. That at other widths the fields keep this order, `TAG` taking the bits left, is the
model's: DESIGN CHOICE, log entry 24. -/

/-- The operand bits, `w[23:0]` at the widths the spec takes (R76), number `indexBits + 8`. -/
def CmdFormat.operandBits (f : CmdFormat) : Nat := f.indexBits + 8

/-- The widths hold the five tags of R74: at least 3 bits are left for `TAG`. -/
def CmdFormat.wf (f : CmdFormat) : Bool := decide (f.operandBits + 3 ≤ f.cmdBits)

/-- `TAG` (R72). -/
def CmdFormat.tagField (f : CmdFormat) (w : Nat) : Nat := w / 2 ^ f.operandBits

/-- `INDEX` (R72). -/
def CmdFormat.indexField (f : CmdFormat) (w : Nat) : Nat := w / 2 ^ 8 % 2 ^ f.indexBits

/-- `VALUE` (R72). -/
def CmdFormat.valueField (_ : CmdFormat) (w : Nat) : Byte := BitVec.ofNat 8 w

/-- The operand bits (R76). -/
def CmdFormat.operandField (f : CmdFormat) (w : Nat) : Nat := w % 2 ^ f.operandBits

/-- A command without operands: its operand bits must be zero (R76). -/
def CmdFormat.bare (f : CmdFormat) (i : Instr) (w : Nat) : Except Invalid Instr :=
  if f.operandField w = 0 then .ok i else .error .operandBits

/-- The decoder of R75: total, and rejecting by name (R78). -/
def CmdFormat.decode (f : CmdFormat) (w : Nat) : Except Invalid Instr :=
  if 2 ^ f.cmdBits ≤ w then .error .tooWide
  else match f.tagField w with
    | 0 => .ok (.setChannel (f.indexField w) (f.valueField w))
    | 1 => f.bare .stop w
    | 2 => f.bare .reset w
    | 3 => f.bare .clearFrame w
    | 4 => f.bare .listDevices w
    | _ => .error .reservedTag

/-- Tag numbers (R74, D11). -/
def Instr.tag : Instr → Nat
  | .setChannel _ _ => 0x00
  | .stop => 0x01
  | .reset => 0x02
  | .clearFrame => 0x03
  | .listDevices => 0x04

/-- `TAG ++ INDEX ++ VALUE`, `TAG` most significant (R72). -/
def CmdFormat.word (f : CmdFormat) (tag index : Nat) (value : Byte) : Nat :=
  tag * 2 ^ f.operandBits + index * 2 ^ 8 + value.toNat

/-- The encoder (R83). `INDEX` and `VALUE` are zero in every command but `SetChannel`. R83 defines it for an index that fits `INDEX`
only, and R73 says that another cannot be sent. For such a command, which `Instr.wfIn` refuses, the model gives the word of the index's
low `INDEX_BITS` bits: DESIGN CHOICE, log entry 17; no step of the machine encodes. -/
def CmdFormat.encode (f : CmdFormat) : Instr → Nat
  | .setChannel index value => f.word (Instr.setChannel index value).tag (index % 2 ^ f.indexBits) value
  | .stop => f.word Instr.stop.tag 0 0#8
  | .reset => f.word Instr.reset.tag 0 0#8
  | .clearFrame => f.word Instr.clearFrame.tag 0 0#8
  | .listDevices => f.word Instr.listDevices.tag 0 0#8

/-! ## The codec at the widths the spec takes (R71, R72) -/

/-- The decoder of 32-bit words. -/
def decode (w : Word) : Except Invalid Instr := Config.format.decode w.toNat

/-- The encoder to 32-bit words (R83). An index of 65536 or more, which R83 leaves out and R73 says cannot be sent, is encoded by its low 16
bits, so that 65537 has the word of index 1: the model's own value for an ill-formed command, DESIGN CHOICE, log entry 17. -/
def encode (i : Instr) : Word := BitVec.ofNat 32 (Config.format.encode i)

/-- The instruction the decoder reads from an opcode-table word of `nbits` bits. A command is one word transferred whole
(R52, R71), so the bits above `nbits` are zero and a word of more than 32 bits is none. -/
def decodeTableWord (nbits w : Nat) : Option Instr :=
  if nbits ≤ 32 then (decode (BitVec.ofNat 32 (w % 2 ^ nbits))).toOption else none

/-! ## The response header -/

/-- Format RH (R77): `RTAG = 0x00`, eight zero bits, `COUNT`. A list of more than 65535 descriptors cannot be encoded. -/
def responseHeader : Response → Option Word
  | .deviceList l => if l.length ≤ 65535 then some (0x0000#16 ++ BitVec.ofNat 16 l.length) else none

/-- A whole Response Message: its header, then each descriptor by the open `DescriptorCodec` (R77, R85). -/
def encodeResponse (r : Response) : Option (Word × List Byte) :=
  match r, responseHeader r with
  | .deviceList l, some h => some (h, l.flatMap Config.descriptorCodec)
  | _, none => none

/-- `COUNT` of a response header, or none where `RTAG` or the zero field is not zero: such a header is never produced (R77, U12). -/
def decodeHeader (h : Word) : Option Nat :=
  if h.extractLsb' 16 16 = 0#16 then some (h.extractLsb' 0 16).toNat else none

/-! ## The textual form -/

/-- A natural number in decimal (R81). -/
def decimal (n : Nat) : List Char := Nat.toDigits 10 n

def nameSetChannel : List Char := ['S', 'e', 't', 'C', 'h', 'a', 'n', 'n', 'e', 'l']
def nameStop : List Char := ['S', 't', 'o', 'p']
def nameReset : List Char := ['R', 'e', 's', 'e', 't']
def nameClearFrame : List Char := ['C', 'l', 'e', 'a', 'r', 'F', 'r', 'a', 'm', 'e']
def nameListDevices : List Char := ['L', 'i', 's', 't', 'D', 'e', 'v', 'i', 'c', 'e', 's']
def nameDeviceList : List Char := ['D', 'e', 'v', 'i', 'c', 'e', 'L', 'i', 's', 't']
def cycleMark : List Char := ['@', 'c', 'y', 'c', 'l', 'e']

/-- The textual form of a Command Message, in the source's own spelling (R81). -/
def Instr.text : Instr → List Char
  | .setChannel c v => nameSetChannel ++ ['('] ++ decimal c ++ [',', ' '] ++ decimal v.toNat ++ [')']
  | .stop => nameStop
  | .reset => nameReset
  | .clearFrame => nameClearFrame
  | .listDevices => nameListDevices

/-- The textual form of a response (R81). The spec gives a descriptor no spelling, so the caller supplies it. -/
def Response.text (spell : Descriptor → List Char) : Response → List Char
  | .deviceList l => nameDeviceList ++ ['(', '['] ++ ([',', ' '].intercalate (l.map spell)) ++ [']', ')']

/-- The number a list of decimal digits spells, or none where it is empty or holds another character. -/
def parseDecimal (l : List Char) : Option Nat :=
  if l ≠ [] ∧ l.all Char.isDigit then some (l.foldl (fun n c => 10 * n + (c.toNat - 48)) 0) else none

/-- `SetChannel(<index>, <value>)` (R81): decimal naturals, the value at most 255 (R70). -/
def parseSetChannel (l : List Char) : Option Instr :=
  let args := l.drop (nameSetChannel.length + 1)
  let index := args.takeWhile (· ≠ ',')
  let rest := args.drop (index.length + 2)
  let value := rest.takeWhile (· ≠ ')')
  if l = nameSetChannel ++ ['('] ++ index ++ [',', ' '] ++ value ++ [')'] then
    match parseDecimal index, parseDecimal value with
    | some c, some v => if v ≤ 255 then some (.setChannel c (BitVec.ofNat 8 v)) else none
    | _, _ => none
  else none

/-- The Command Message a text spells (R81). There are no pseudo-instructions (R82). -/
def parseMessage (l : List Char) : Option Instr :=
  if l = nameStop then some .stop
  else if l = nameReset then some .reset
  else if l = nameClearFrame then some .clearFrame
  else if l = nameListDevices then some .listDevices
  else parseSetChannel l

/-- One line of a program text (R81): a message, a comment, or the schedule mark `@cycle`, which is no message. -/
inductive SourceLine where
  | message (i : Instr)
  | comment
  | cycle
  deriving DecidableEq, Repr

/-- Read one line (R81). -/
def parseLine (l : List Char) : Option SourceLine :=
  if ['-', '-'].isPrefixOf l then some .comment
  else if l = cycleMark then some .cycle
  else (parseMessage l).map .message

end Sys2Proof
end

