-- ==== Sys2Proof/Machine/Arith.lean ====
section
/-! DEFINITION. The block's arithmetic on naturals: the target frame duration (R131) and the probe's classification (R122). -/

namespace Sys2Proof.Machine

/-- `TC`, the Timing Classification (R25). -/
inductive TimingClass where
  /-- Not yet measured. -/
  | unknown
  | adequate
  | coarse
  deriving DecidableEq, Repr, Inhabited

/-- `raw = floor((2 000 000 + FREQ) / (2 * FREQ))` (R131): `1 000 000 / FREQ` rounded half up. -/
def targetRaw (freq : Nat) : Nat := (2000000 + freq) / (2 * freq)

/-- `TARGET_MS = max(1, raw)` (R131, conflict C3). -/
def targetMsOf (freq : Nat) : Nat := max 1 (targetRaw freq)

/-- `Classify(elapsed)` (R122): the comparison is strict, a time equal to the threshold does not exceed it. -/
def classify (threshold elapsed : Nat) : TimingClass :=
  if threshold < elapsed then .coarse else .adequate

/-- The check of the pacer (R135): milliseconds of target against microseconds of clock. -/
def boundaryReached (start targetMs now : Nat) : Bool := decide (targetMs * 1000 ≤ now - start)

end Sys2Proof.Machine
end

