-- ==== Sys2Proof/Machine/FrameBuffer.lean ====
section
/-! DEFINITION. The Frame Buffer as memory: a list of (slot, byte) cells in one canonical form, and the four accessors of
spec file 41. The slot index space is 0 to 512 (R50, R57); an unlisted slot reads 0, its reset content (R21, R48). -/

namespace Sys2Proof.Machine

/-- The Frame Buffer (R21), its cells by rising slot number, no cell holding 0. -/
abbrev Memory := List Host.Cell

/-- What an unlisted slot reads as: the Frame Buffer is created zero-filled (R21, R48). -/
def Memory.blank : Byte := 0#8

/-- `FB[k]` (R11): the read of one slot. -/
def Memory.read : Memory → Nat → Byte
  | [], _ => Memory.blank
  | (a, b) :: m, k => if k = a then b else Memory.read m k

/-- `FB[k] <- v` (R11): the write of one slot. Writing what an unlisted slot reads as removes the cell. -/
def Memory.write : Memory → Nat → Byte → Memory
  | [], k, v => if v = Memory.blank then [] else [(k, v)]
  | (a, b) :: m, k, v =>
    if k < a then (if v = Memory.blank then (a, b) :: m else (k, v) :: (a, b) :: m)
    else if k = a then (if v = Memory.blank then m else (k, v) :: m)
    else (a, b) :: Memory.write m k v

/-- The canonical form from slot `lo` up: slots strictly rising and inside the slot index space (R57), no cell blank. -/
def Memory.wfFrom : Nat → Memory → Bool
  | _, [] => true
  | lo, (a, b) :: m =>
    decide (lo ≤ a) && decide (a < Config.nslots) && decide (b ≠ Memory.blank) && Memory.wfFrom (a + 1) m

/-- The canonical form of the Frame Buffer, so that equal buffers are equal lists. -/
def Memory.wf (m : Memory) : Bool := Memory.wfFrom 0 m

/-- The slots `addr` to `addr + n - 1`, in rising order. -/
def Memory.slots (m : Memory) (addr n : Nat) : List Byte :=
  (List.range n).map fun k => m.read (addr + k)

/-- Write the bytes `vs` to the slots from `addr` up. -/
def Memory.putSlots : Memory → Nat → List Byte → Memory
  | m, _, [] => m
  | m, addr, v :: vs => Memory.putSlots (m.write addr v) (addr + 1) vs

/-- `MemRead(addr, n)` (R11), defined only when `addr + n <= 513`. -/
def Memory.memRead (m : Memory) (addr n : Nat) : Option (List Byte) :=
  if addr + n ≤ Config.nslots then some (m.slots addr n) else none

/-- `MemWrite(addr, n, v)` (R11) with `n` the length of `v`, defined only when `addr + n <= 513`. -/
def Memory.memWrite (m : Memory) (addr : Nat) (v : List Byte) : Option Memory :=
  if addr + v.length ≤ Config.nslots then some (m.putSlots addr v) else none

/-- The frame image `MemRead(0, 513)` (R13, R51): `FB[0]` first, `FB[512]` last, always 513 bytes. -/
def Memory.frame (m : Memory) : List Byte := m.slots 0 Config.nslots

/-- Why an accessor fails (R112, R113). -/
inductive BoundsError where
  | bounds
  deriving DecidableEq, Repr

/-- `valid(c)` (R111). -/
def validChannel (c : Nat) : Bool := decide (Config.chMin ≤ c) && decide (c ≤ Config.chMax)

/-- `FB_SET(c, v)` (R112): the result and the buffer afterwards, which is unchanged on a bounds error. -/
def fbSet (m : Memory) (c : Nat) (v : Byte) : Except BoundsError Unit × Memory :=
  if validChannel c then (.ok (), m.write c v) else (.error .bounds, m)

/-- `FB_GET(c)` (R113): the local cache only; index 0 is a bounds error although slot 0 exists. -/
def fbGet (m : Memory) (c : Nat) : Except BoundsError Byte :=
  if validChannel c then .ok (m.read c) else .error .bounds

/-- `FB_CLEAR()` (R114): every slot to 0, slot 0 included. In canonical form that is the empty list. -/
def fbClear (_ : Memory) : Memory := []

/-- `FB_SYNC(raw)` (R115, D33): copy from slot 0 up to the buffer's length; shorter input leaves the trailing slots unchanged. -/
def fbSync (m : Memory) (raw : List Byte) : Memory := m.putSlots 0 (raw.take Config.nslots)

end Sys2Proof.Machine
end

