-- ==== Sys2Proof/Machine/State.lean ====
section
/-! DEFINITION. The machine's state (R20), the reasons a step can stop, and reset (R48, R260 to R262). -/

namespace Sys2Proof.Machine

/-- `LS`, the loop state (R23). -/
inductive LoopState where
  | initializing
  | running
  | draining
  | closed
  deriving DecidableEq, Repr, Inhabited

/-- `PH`, the name of the step `SEQ` performs next (R24), the program-counter analogue. -/
inductive Phase where
  | i1Open
  | i2Settle
  | i3Probe
  | i4Config
  | s1Drain
  | s2Stamp
  | s3Break
  | s4BreakHold
  | s5Mab
  | s6MabHold
  | s7Write
  | s8Pace
  | d1Flush
  | x1Clear
  | x2ZeroWrite
  | x3Release
  | x4Halt
  /-- The assert before the final frame. This phase and the three below are no phases of R24: they exist only in a build with
  `FINAL_PREAMBLE = true`, between `X1_CLEAR` and `X2_ZERO_WRITE` (D25, U21; DESIGN CHOICE, log entry 25). -/
  | xpBreak
  /-- The hold of that break (log entry 25). -/
  | xpBreakHold
  /-- The deassert before the final frame (log entry 25). -/
  | xpMab
  /-- The hold of that mark (log entry 25). -/
  | xpMabHold
  deriving DecidableEq, Repr, Inhabited

/-- `HANDLE` (R29): whether the block holds the transport handle. -/
inductive Handle where
  | none
  | opened
  deriving DecidableEq, Repr, Inhabited

/-- `LINE` (R44): the state of the DMX line. -/
inductive Line where
  | mark
  /-- `Break` of R44: the line is low. -/
  | breakLow
  | data
  /-- Stands for every line state (U15). -/
  | unknown
  deriving DecidableEq, Repr, Inhabited

/-- The eleven errors of R221. `eRead` is reserved and never raised (conflict C6). -/
inductive ErrCode where
  | eOpen
  | eExcl
  | eConfig
  | eBounds
  | eBreakOn
  | eBreakOff
  | eWrite
  | eRead
  | eEnum
  | eRspSend
  | eClose
  deriving DecidableEq, Repr

/-- The `info` an error records (R221). -/
inductive ErrInfo where
  | nothing
  | device (i : Word)
  | initial
  | reset
  | index (c : Nat)
  | cycle
  | final
  deriving DecidableEq, Repr

/-- One event of `LOG` (R46): `(t, code, info)`. -/
structure LogEntry where
  t    : Nat
  code : ErrCode
  info : ErrInfo
  deriving DecidableEq, Repr

/-- A transport primitive with its arguments (R92 to R103). No phase or command issues `tStatus`, `tReset`, `tPurge` or `tRead` on its own
(R94, R96, R97, R99). -/
inductive Prim where
  | tOpen (i : Word)
  | tStatus
  | tConfigure (lineCfg : LineCfg) (rdTimeoutMs wrTimeoutMs : Word)
  | tReset
  | tPurge
  | tWrite (bytes : List Byte)
  | tRead
  | tSetBreak
  | tClearBreak
  | tClose
  | tEnumerate
  deriving DecidableEq, Repr

/-- The `k` of an `Err(k)` answer (R92 to R103). -/
inductive TpError where
  | alreadyOpen
  | openFailed
  | configFailed
  | writeFailed
  | readFailed
  | breakFailed
  | closeFailed
  | enumFailed
  deriving DecidableEq, Repr

/-- An answer as `TRACE` records it (R91): `Ok`, `Ok(v)` or `Err(k)`. -/
inductive Answer where
  | ok
  | okDevices (list : List Descriptor)
  | okBytes (bytes : List Byte)
  | err (k : TpError)
  deriving DecidableEq, Repr

/-- One event of `TRACE` (R45): `(t, op, args, result)`, the arguments inside the primitive. -/
structure TraceEntry where
  t      : Nat
  op     : Prim
  result : Answer
  deriving DecidableEq, Repr

/-- Why a step stops. -/
inductive Fault where
  /-- Raised by a step of `SEQ` in a state whose `LS` is not the loop state the table of R24 gives its `PH`, or whose `PH` is a phase of the
  final preamble in a build without one. No such position is a state of the hardware and no run reaches one (log entry 8), so the stop
  is safe. -/
  | illegalPosition
  deriving DecidableEq, Repr

/-- What has no meaning. -/
inductive Refusal where
  /-- Raised by an arm of exec for an instruction that has no meaning yet: none here. Safe. -/
  | notModelled (mnemonic : String)
  /-- Raised by `State.create`, which refuses a configuration with `FREQ = 0` (R12, R262). Safe. -/
  | freqZero
  deriving DecidableEq, Repr

/-- The complete state of one block instance and of its environment (R20). -/
structure State where
  /-- `FB[0..512]` (R21). -/
  fb          : Memory
  /-- `LS` (R23). -/
  ls          : LoopState
  /-- `PH` (R24). -/
  ph          : Phase
  /-- `TC` (R25). -/
  tc          : TimingClass
  /-- `T0`, µs (R26). -/
  t0          : Nat
  /-- `CYCLE_START`, µs (R27). -/
  cycleStart  : Nat
  /-- `TARGET_MS`, ms (R28). -/
  targetMs    : Nat
  /-- `HANDLE` (R29). -/
  handle      : Handle
  /-- `BRK` (R30). -/
  brk         : Bool
  /-- `ERR`, 16 sticky bits (R31). -/
  err         : BitVec 16
  /-- `DEV_INDEX` (R32). -/
  devIndex    : Word
  /-- `FREQ` (R32). -/
  freq        : Word
  /-- `RD_TIMEOUT_MS` (R32). -/
  rdTimeoutMs : Word
  /-- `WR_TIMEOUT_MS` (R32). -/
  wrTimeoutMs : Word
  /-- `LINE_CFG` (R32). -/
  lineCfg     : LineCfg
  /-- `CQ`, the Command Channel, head first (R33). -/
  cq          : List Instr
  /-- `CQ_TX_OPEN` (R34). -/
  cqTxOpen    : Bool
  /-- `RQ`, the Response Channel, head first (R35). -/
  rq          : List Response
  /-- `RQ_RX_OPEN` (R36). -/
  rqRxOpen    : Bool
  /-- `NOW`, µs (R40). -/
  now         : Nat
  /-- `DEV_OPEN` (R43), strictly rising, so that equal sets are equal lists. -/
  devOpen     : List Word
  /-- `LINE` (R44). -/
  line        : Line
  /-- `TRACE`, oldest first (R45). -/
  trace       : List TraceEntry
  /-- `LOG`, oldest first (R46). -/
  log         : List LogEntry
  /-- The model's own (log entry 2): the time a sleep in progress may end (R42), or none. -/
  wake        : Option Nat
  /-- The model's own: the parameters of R9, never written (R14, log entry 4). -/
  params      : Params
  /-- The model's own (log entry 1): the moves the environment's agents and `SEQ` make next, oldest first; past its end they are free
  values. -/
  sched       : List Move
  /-- The model's own (log entry 1): the moves made so far, which number the free moves. -/
  moveCount   : Nat
  /-- The model's own (log entry 1): the draws of the next steps of `SEQ`, oldest first; past its end they are free values. -/
  draws       : List Draw
  /-- The model's own (log entry 1): the steps of `SEQ` so far, which number the free draws. -/
  drawCount   : Nat
  /-- The model's own (log entry 1): the draw of the step of `SEQ` in progress. Every step of `SEQ` overwrites it before it is read. -/
  cur         : Draw
  deriving DecidableEq, Repr

/-- The state right after the creation of an instance with the latches `c` and parameters `p`, by the table of R48. `NOW` and
`DEV_OPEN` are the environment's and are not reset by the block. -/
def State.fresh (c : Latches) (p : Params) (now : Nat) (devOpen : List Word) : State :=
  { fb := [], ls := .initializing, ph := .i1Open, tc := .unknown, t0 := 0, cycleStart := 0,
    targetMs := targetMsOf c.freq.toNat, handle := .none, brk := false, err := 0#16,
    devIndex := c.devIndex, freq := c.freq, rdTimeoutMs := c.rdTimeoutMs, wrTimeoutMs := c.wrTimeoutMs, lineCfg := c.lineCfg,
    cq := [], cqTxOpen := true, rq := [], rqRxOpen := true,
    now := now, devOpen := devOpen, line := .unknown, trace := [], log := [],
    wake := none, params := p, sched := [], moveCount := 0, draws := [], drawCount := 0, cur := ⟨0, true, [], []⟩ }

/-- Reset with its arguments (R260): refused when `FREQ = 0` (R262), else the state of R48. -/
def State.create (c : Latches) (p : Params) (now : Nat) (devOpen : List Word) : Host.Outcome State Fault Refusal :=
  if c.freq = 0#32 then .refused .freqZero else .next (State.fresh c p now devOpen)

/-- The identity of the block the state is of (R2): its parameters and the latches its instance was created with. -/
def State.identity (s : State) : Identity :=
  Config.identity s.params
    { devIndex := s.devIndex, freq := s.freq, rdTimeoutMs := s.rdTimeoutMs, wrTimeoutMs := s.wrTimeoutMs, lineCfg := s.lineCfg }

/-- The machine right after reset (R48), with the default `FREQ` of R32 and the parameter values R9 takes. -/
def State.reset : State := State.fresh Config.latches Config.params 0 []

end Sys2Proof.Machine
end

