-- ==== Sys2Proof/Machine/Flags.lean ====
section
/-! DEFINITION. The flags: the sticky error bits of `ERR` (R31, R221), the timing flag `TC` (R122) and the break flag `BRK` (R30). -/

namespace Sys2Proof.Machine

/-- The code number of an error (R221): its bit in `ERR`. -/
def ErrCode.code : ErrCode → Nat
  | .eOpen => 1
  | .eExcl => 2
  | .eConfig => 3
  | .eBounds => 4
  | .eBreakOn => 5
  | .eBreakOff => 6
  | .eWrite => 7
  | .eRead => 8
  | .eEnum => 9
  | .eRspSend => 10
  | .eClose => 11

/-- The mask of one error's bit in `ERR` (R31). -/
def ErrCode.mask (e : ErrCode) : BitVec 16 := 1#16 <<< e.code

/-- `ERR[code(E_X)] <- 1` (R222): sticky, no other bit changes. -/
def errSet (err : BitVec 16) (e : ErrCode) : BitVec 16 := err ||| e.mask

/-- `BRK` after a break primitive (R30): an assert sets it, a deassert clears it, a failed one leaves it unchanged. -/
def brkAfter (brk asserted answersOk : Bool) : Bool := if answersOk then asserted else brk

/-- `LINE` after a break primitive (R44): low after a successful assert, mark after a successful deassert, unknown after a failure. -/
def lineAfterBreak (asserted answersOk : Bool) : Line :=
  if answersOk then (if asserted then .breakLow else .mark) else .unknown

/-- `LINE` after a write (R44): mark after `Ok`, unknown after `Err`. R44 says so of every `Ok`, while R100 and R274 say that the line stays, or
may stay, low until a successful deassert; of a write that answers `Ok` while a break may still be asserted the model takes R44's mark:
DESIGN CHOICE, log entry 23. -/
def lineAfterWrite (answersOk : Bool) : Line := if answersOk then .mark else .unknown

end Sys2Proof.Machine
end

