-- ==== Sys2Proof/Machine/Operands.lean ====
section
/-! DEFINITION. The operand forms: the two operands of `SetChannel` (R73) and the arguments the transport primitives take from the
latches (R92, R95, R98). No operand is sign-extended, scaled or offset, and there is no other addressing mode. -/

namespace Sys2Proof.Machine

/-- The loop state each phase belongs to (R24); a phase of the final preamble belongs to the shutdown. -/
def Phase.loopState : Phase → LoopState
  | .i1Open | .i2Settle | .i3Probe | .i4Config => .initializing
  | .s1Drain | .s2Stamp | .s3Break | .s4BreakHold | .s5Mab | .s6MabHold | .s7Write | .s8Pace => .running
  | .d1Flush => .draining
  | .x1Clear | .x2ZeroWrite | .x3Release | .x4Halt | .xpBreak | .xpBreakHold | .xpMab | .xpMabHold => .closed

/-- The phases of the final preamble, which exist only under `FINAL_PREAMBLE = true` (log entry 25). -/
def Phase.ofFinalPreamble : Phase → Bool
  | .xpBreak | .xpBreakHold | .xpMab | .xpMabHold => true
  | _ => false

/-- The position of `SEQ` is one of the block: a row of the table of R24, and a phase its build has. -/
abbrev State.placed (s : State) : Prop :=
  s.ls = s.ph.loopState ∧ (s.ph.ofFinalPreamble = true → s.params.finalPreamble = true)

/-- The number of a loop state (R23, D26). -/
def LoopState.code : LoopState → Nat
  | .initializing => 0
  | .running => 1
  | .draining => 2
  | .closed => 3

/-- The slot the channel index of `SetChannel` names: the 1-based channel number, used as it stands (R73). -/
def operandSlot (index : Nat) : Nat := index

/-- The value operand of `SetChannel`, stored as given, with no scaling and no clamping (R73, R200). -/
def operandValue (value : Byte) : Byte := value

/-- The arguments of `T_OPEN` (R92): the device index latch. -/
def State.openArgs (s : State) : Prim := .tOpen s.devIndex

/-- The arguments of `T_CONFIGURE` (R95): the same latches every time. -/
def State.configureArgs (s : State) : Prim := .tConfigure s.lineCfg s.rdTimeoutMs s.wrTimeoutMs

/-- The argument of `T_WRITE` in `S7_WRITE` and `X2_ZERO_WRITE` (R98): the frame image. -/
def State.writeArgs (s : State) : Prim := .tWrite s.fb.frame

end Sys2Proof.Machine
end

