-- ==== Sys2Proof/Machine/Ops.lean ====
section
/-! DEFINITION. The shared operations: the start of a step of `SEQ`, raising an error and what follows it (R222, R228, R230), the transport
primitives (R91 to R103), the sleep (R42), the response send (R207), and the steps of the other agents. -/

namespace Sys2Proof.Machine

/-! ## Draws and time -/

/-- The move the next step makes: the first listed one, or a free value when none is listed (R38, log entry 1). -/
def State.nextMove (s : State) : Move := s.sched.headD (Config.freeMove s.moveCount)

/-- The state in which the agent that moves takes its step: the schedule has gone on. -/
def State.advanced (s : State) : State := { s with sched := s.sched.tail, moveCount := s.moveCount + 1 }

/-- The draw of the next step of `SEQ`: the first listed one, or a free value when none is listed (R38, log entry 1). -/
def State.nextDraw (s : State) : Draw := s.draws.headD (Config.freeDraw s.drawCount)

/-- The start of a step of `SEQ`: its draw is taken and its time passes, so that a stamp the step takes is `NOW` at its end
(R41, R45; 95_test_vectors.md V-SEQ; log entry 5). -/
def State.beginStep (s : State) : State :=
  { s with cur := s.nextDraw, draws := s.draws.tail, drawCount := s.drawCount + 1, now := s.now + s.nextDraw.elapsed }

/-- `(LS, PH) <- (l, p)` (R11): the transfer of control. -/
def State.goto (s : State) (l : LoopState) (p : Phase) : State := { s with ls := l, ph := p }

/-! ## Taking an error, and what resumes normal operation -/

/-- `raise E_X(info)` (R222): set the sticky bit, append to `LOG`, and nothing else. It transfers no control, saves no state,
switches no mode and masks nothing. -/
def State.raise (s : State) (e : ErrCode) (info : ErrInfo) : State :=
  { s with err := errSet s.err e, log := s.log ++ [⟨s.now, e, info⟩] }

/-- Trap entry of a transient error (R3, R228): record it and skip to phase `p`, which in `Running` is the pacing step. -/
def State.skipTo (s : State) (p : Phase) (e : ErrCode) (info : ErrInfo) : State := { s.raise e info with ph := p }

/-- Trap return (R3, R230): there is no return instruction; after the pacing step the sequencer drains and retries in the next cycle. -/
def State.nextCycle (s : State) : State := { s with wake := none, ph := .s1Drain }

/-! ## The set `DEV_OPEN` -/

/-- Add an index to a strictly rising list. -/
def insertIndex (i : Word) : List Word → List Word
  | [] => [i]
  | j :: l => if i.toNat < j.toNat then i :: j :: l else if i = j then j :: l else j :: insertIndex i l

/-- Take an index out of a strictly rising list. -/
def removeIndex (i : Word) (l : List Word) : List Word := l.filter (· ≠ i)

/-! ## The transport primitives -/

/-- The answer is received and the event appended to `TRACE` (R91, R45). -/
def State.record (s : State) (op : Prim) (result : Answer) : State :=
  { s with trace := s.trace ++ [⟨s.now, op, result⟩] }

/-- What an answer looks like in `TRACE`. -/
def answerOf : Except TpError Unit → Answer
  | .ok _ => .ok
  | .error k => .err k

/-- An `Ok` or `Err(k)` answer that only the draw decides (R91). -/
def State.drawn (s : State) (k : TpError) : Except TpError Unit := if s.cur.answersOk then .ok () else .error k

/-- The answer of `T_OPEN` (R92, R93): `AlreadyOpen` if and only if the index is in `DEV_OPEN`, else a draw. -/
def State.openAnswer (s : State) : Except TpError Unit :=
  if s.devIndex ∈ s.devOpen then .error .alreadyOpen else s.drawn .openFailed

/-- `T_OPEN(DEV_INDEX)` (R92, R43, R44). -/
def State.tOpen (s : State) : Except TpError Unit × State :=
  match s.openAnswer with
  | .ok _ => (.ok (), { s.record s.openArgs .ok with devOpen := insertIndex s.devIndex s.devOpen, line := .unknown })
  | .error k => (.error k, { s.record s.openArgs (.err k) with line := .unknown })

/-- `T_CONFIGURE(LINE_CFG, RD_TIMEOUT_MS, WR_TIMEOUT_MS)` (R95): reset, configure and purge as one primitive with one answer (R96, R97, D19).
After it `LINE` is unknown. -/
def State.tConfigure (s : State) : Except TpError Unit × State :=
  (s.drawn .configFailed, { s.record s.configureArgs (answerOf (s.drawn .configFailed)) with line := .unknown })

/-- `T_WRITE(MemRead(0, 513))` (R98, R44): `LINE` is `Data` while it lasts. -/
def State.tWrite (s : State) : Except TpError Unit × State :=
  let during := { s with line := .data }
  (during.drawn .writeFailed,
    { during.record during.writeArgs (answerOf (during.drawn .writeFailed)) with line := lineAfterWrite during.cur.answersOk })

/-- `T_SET_BREAK()` (R100, R44). -/
def State.tSetBreak (s : State) : Except TpError Unit × State :=
  (s.drawn .breakFailed,
    { s.record .tSetBreak (answerOf (s.drawn .breakFailed)) with line := lineAfterBreak true s.cur.answersOk })

/-- `T_CLEAR_BREAK()` (R101, R44). -/
def State.tClearBreak (s : State) : Except TpError Unit × State :=
  (s.drawn .breakFailed,
    { s.record .tClearBreak (answerOf (s.drawn .breakFailed)) with line := lineAfterBreak false s.cur.answersOk })

/-- `T_CLOSE()` (R102, R43): whatever it answers, `DEV_OPEN` loses the index. What it does to the line is the transport's affair (R274), so
`LINE` is unknown after it: DEDUCED, log entry 9. -/
def State.tClose (s : State) : Except TpError Unit × State :=
  (s.drawn .closeFailed,
    { s.record .tClose (answerOf (s.drawn .closeFailed)) with devOpen := removeIndex s.devIndex s.devOpen, line := .unknown })

/-- `T_ENUMERATE()` (R103): the list is a draw. -/
def State.tEnumerate (s : State) : Except TpError (List Descriptor) × State :=
  if s.cur.answersOk then (.ok s.cur.devices, s.record .tEnumerate (.okDevices s.cur.devices))
  else (.error .enumFailed, s.record .tEnumerate (.err .enumFailed))

/-- `T_READ()` (R99). No phase issues it (conflict C6); it is the source of the argument of `FB_SYNC`. -/
def State.tRead (s : State) : Except TpError (List Byte) × State :=
  if s.cur.answersOk then (.ok s.cur.received, s.record .tRead (.okBytes s.cur.received))
  else (.error .readFailed, s.record .tRead (.err .readFailed))

/-! ## Sleeping -/

/-- The time the sleep of `d` µs in progress may end; a sleep not yet begun begins at `t`, when this step began (R42). -/
def State.wakeTime (s : State) (t d : Nat) : Nat := s.wake.getD (t + d)

/-- `Sleep(d); PH <- p` (R42): the phase is left once `NOW` has reached the sleep's end. Until then only time passes,
and other agents may step (R12, D41). -/
def State.sleepThen (s : State) (t d : Nat) (p : Phase) : State :=
  if s.wakeTime t d ≤ s.now then { s with wake := none, ph := p } else { s with wake := some (s.wakeTime t d) }

/-- `if TC = Adequate then Sleep(d); PH <- p` (R164, R166): without `Adequate` the phase is left at once. -/
def State.holdThen (s : State) (t d : Nat) (p : Phase) : State :=
  if s.tc = .adequate then s.sleepThen t d p else { s with ph := p }

/-! ## The two halves of a preamble -/

/-- Assert the break (R163): on `Ok` it is held in phase `p`; on `Err` the preamble is skipped, to phase `q`. -/
def State.assertThen (s : State) (p q : Phase) : State :=
  match s.tSetBreak with
  | (.ok _, s') => { s' with brk := brkAfter s'.brk true true, ph := p }
  | (.error _, s') => s'.skipTo q .eBreakOn .nothing

/-- Deassert the break (R165): on `Ok` the mark is held in phase `p`; on `Err` `SEQ` skips to phase `q`. -/
def State.deassertThen (s : State) (p q : Phase) : State :=
  match s.tClearBreak with
  | (.ok _, s') => { s' with brk := brkAfter s'.brk false true, ph := p }
  | (.error _, s') => s'.skipTo q .eBreakOff .nothing

/-! ## The pacer's yield -/

/-- A yield of the pacer is in progress (R135): its sleep has not yet ended. -/
def State.yielding (s : State) : Bool := decide (s.now < s.wake.getD 0)

/-! ## Responses -/

/-- `RspSend(m)` (R207): to a closed receiver the message is dropped and `E_RSP_SEND` recorded. The send never waits. -/
def State.rspSend (s : State) (m : Response) : State :=
  if s.rqRxOpen then { s with rq := s.rq ++ [m] } else s.raise .eRspSend .nothing

/-! ## The steps of the other agents -/

/-- `HostSend(w)` (R191), `w` the number the bits of the word spell: an invalid word is refused at the port and changes nothing (R78), and without
its endpoint the host sends nothing (R208). -/
def State.hostSend (s : State) (w : Nat) : State :=
  match s.params.format.decode w with
  | .ok i => if s.cqTxOpen then { s with cq := s.cq ++ [i] } else s
  | .error _ => s

/-- The host's receive step (R206), possible only while `RQ_RX_OPEN = 1` and `RQ` is not empty. -/
def State.hostReceive (s : State) : State := if s.rqRxOpen then { s with rq := s.rq.tail } else s

/-- `CQ_TX_OPEN <- 0` (R208, R34). -/
def State.hostCloseTx (s : State) : State := { s with cqTxOpen := false }

/-- `RQ_RX_OPEN <- 0` (R208, R36). -/
def State.hostCloseRx (s : State) : State := { s with rqRxOpen := false }

/-- `CLK` adds `d` to `NOW` (R41). -/
def State.clockTick (s : State) (d : Nat) : State := { s with now := s.now + d }

/-- Another instance's successful `T_OPEN(i)` (R43, R244): `i` joins `DEV_OPEN`. -/
def State.otherOpen (s : State) (i : Word) : State := { s with devOpen := insertIndex i s.devOpen }

/-- Another instance's `T_CLOSE` of `i` (R43, R244). The handle this block holds is no other instance's, so its index stays. -/
def State.otherClose (s : State) (i : Word) : State :=
  if s.handle = .opened ∧ i = s.devIndex then s else { s with devOpen := removeIndex i s.devOpen }

/-! ## Placing a command -/

/-- The state in which the next step pops and executes `i`: `SEQ` is at `S1_DRAIN` of `Running` with no sleep in
progress, the schedule names `SEQ`, and `i` is the head of `CQ` (R160; log entry 7). -/
def State.placeCommand (s : State) (i : Instr) : State :=
  { s with ls := .running, ph := .s1Drain, wake := none, sched := [.seq], cq := i :: s.cq }

end Sys2Proof.Machine
end

