-- ==== Sys2Proof/Machine/Commands.lean ====
section
/-! DEFINITION. The meanings of the five Command Messages (R195, R200 to R204). -/

namespace Sys2Proof.Machine

/-- `SetChannel(index, value)` (R200): `FB_SET`, and `E_BOUNDS(index)` when the index is out of range. -/
def execSetChannel (index : Nat) (value : Byte) (s : State) : Host.Outcome State Fault Refusal :=
  .next (match fbSet s.fb (operandSlot index) (operandValue value) with
    | (.ok _, m) => { s with fb := m }
    | (.error _, _) => s.raise .eBounds (.index index))

/-- `Stop` (R201): `(LS, PH) <- (Draining, D1_FLUSH)`. -/
def execStop (s : State) : Host.Outcome State Fault Refusal :=
  .next (s.goto .draining .d1Flush)

/-- `Reset` (R202): re-run the line configuration; a failure is recorded and the drain goes on. -/
def execReset (s : State) : Host.Outcome State Fault Refusal :=
  .next (match s.tConfigure with
    | (.ok _, s') => s'
    | (.error _, s') => s'.raise .eConfig .reset)

/-- `ClearFrame` (R203): `FB_CLEAR`. -/
def execClearFrame (s : State) : Host.Outcome State Fault Refusal :=
  .next { s with fb := fbClear s.fb }

/-- `ListDevices` (R204): enumerate and attempt exactly one response, the empty list when the enumeration fails. -/
def execListDevices (s : State) : Host.Outcome State Fault Refusal :=
  .next (match s.tEnumerate with
    | (.ok list, s') => s'.rspSend (.deviceList list)
    | (.error _, s') => (s'.raise .eEnum .nothing).rspSend (.deviceList []))

end Sys2Proof.Machine
end

