-- ==== Sys2Proof/Machine/Dispatch.lean ====
section
/-! DEFINITION. `Execute(c)` (R195): one arm per Command Message, with no default arm. -/

namespace Sys2Proof.Machine

def exec (i : Instr) (s : State) : Host.Outcome State Fault Refusal :=
  match i with
  | .setChannel index value => Sys2Proof.Machine.execSetChannel index value s
  | .stop => Sys2Proof.Machine.execStop s
  | .reset => Sys2Proof.Machine.execReset s
  | .clearFrame => Sys2Proof.Machine.execClearFrame s
  | .listDevices => Sys2Proof.Machine.execListDevices s

end Sys2Proof.Machine
end

