-- ==== Sys2Proof/Machine/Phases.lean ====
section
/-! DEFINITION. The 17 phases of the sequencer (R24, R152 to R176) and the four a build with `FINAL_PREAMBLE = true` adds, each acting on the state
after `State.beginStep`, and the step of `SEQ` and of the other agents. -/

namespace Sys2Proof.Machine

/-- `I1_OPEN` (R152, R121). -/
def phaseOpen (s : State) : State :=
  match s.tOpen with
  | (.ok _, s') => { s' with handle := .opened, t0 := s'.now, ph := .i2Settle }
  | (.error .alreadyOpen, s') => (s'.raise .eExcl (.device s'.devIndex)).goto .closed .x4Halt
  | (.error _, s') => (s'.raise .eOpen (.device s'.devIndex)).goto .closed .x4Halt

/-- `I2_SETTLE` (R153); `t` is the time the step began. -/
def phaseSettle (t : Nat) (s : State) : State := s.sleepThen t s.params.settleUs .i3Probe

/-- `I3_PROBE` (R154, R122). -/
def phaseProbe (s : State) : State :=
  { s with tc := classify s.params.coarseThresholdUs (s.now - s.t0), ph := .i4Config }

/-- `I4_CONFIG` (R155). -/
def phaseConfig (s : State) : State :=
  match s.tConfigure with
  | (.ok _, s') => s'.goto .running .s1Drain
  | (.error _, s') => (s'.raise .eConfig .initial).goto .closed .x1Clear

/-- `S1_DRAIN`, step 1 (R160): one pop and its execution, or the queue seen empty. `Stop` writes `(LS, PH)`; every other command leaves
them at `S1_DRAIN`. -/
def phaseDrain (s : State) : Host.Outcome State Fault Refusal :=
  match s.cq with
  | [] => .next { s with ph := .s2Stamp }
  | c :: rest => exec c { s with cq := rest }

/-- `S2_STAMP`, step 2 (R162). -/
def phaseStamp (s : State) : State := { s with cycleStart := s.now, ph := .s3Break }

/-- `S3_BREAK`, step 3 (R163). -/
def phaseBreak (s : State) : State := s.assertThen .s4BreakHold .s8Pace

/-- `S4_BREAK_HOLD`, step 4 (R164); `t` is the time the step began. -/
def phaseBreakHold (t : Nat) (s : State) : State := s.holdThen t s.params.breakHoldUs .s5Mab

/-- `S5_MAB`, step 5 (R165). -/
def phaseMab (s : State) : State := s.deassertThen .s6MabHold .s8Pace

/-- `S6_MAB_HOLD`, step 6 (R166); `t` is the time the step began. -/
def phaseMabHold (t : Nat) (s : State) : State := s.holdThen t s.params.mabHoldUs .s7Write

/-- `S7_WRITE`, step 7 (R167). -/
def phaseWrite (s : State) : State :=
  match s.tWrite with
  | (.ok _, s') => { s' with ph := .s8Pace }
  | (.error _, s') => s'.skipTo .s8Pace .eWrite .cycle

/-- `S8_PACE`, step 8 (R168): one check of `WaitForFrameBoundary(CYCLE_START, TARGET_MS, TC)` (R135). Under `Adequate` a yield lies between
two checks; under `Coarse` and `Unknown` the next step checks again at once. -/
def phasePace (s : State) : State :=
  if s.yielding then s
  else if boundaryReached s.cycleStart s.targetMs s.now then s.nextCycle
  else { s with wake := if s.tc = .adequate then some (s.now + s.params.yieldUs) else none }

/-- `D1_FLUSH` (R172). -/
def phaseFlush (s : State) : State := s.goto .closed .x1Clear

/-- `X1_CLEAR` (R173): then the final frame, without a preamble where `FINAL_PREAMBLE = false` (R174, D25). -/
def phaseClear (s : State) : State :=
  { s with fb := fbClear s.fb, ph := if s.params.finalPreamble then .xpBreak else .x2ZeroWrite }

/-- The assert before the final frame (log entry 25): steps 3 to 6 of a cycle; a failed primitive is recorded and the final frame is written
all the same (R177). -/
def phaseFinalBreak (s : State) : State := s.assertThen .xpBreakHold .x2ZeroWrite

/-- The hold of that break (log entry 25); `t` is the time the step began. -/
def phaseFinalBreakHold (t : Nat) (s : State) : State := s.holdThen t s.params.breakHoldUs .xpMab

/-- The deassert before the final frame (log entry 25). -/
def phaseFinalMab (s : State) : State := s.deassertThen .xpMabHold .x2ZeroWrite

/-- The hold of that mark (log entry 25); `t` is the time the step began. -/
def phaseFinalMabHold (t : Nat) (s : State) : State := s.holdThen t s.params.mabHoldUs .x2ZeroWrite

/-- `X2_ZERO_WRITE` (R174). -/
def phaseZeroWrite (s : State) : State :=
  match s.tWrite with
  | (.ok _, s') => { s' with ph := .x3Release }
  | (.error _, s') => { s'.raise .eWrite .final with ph := .x3Release }

/-- `X3_RELEASE` (R175). -/
def phaseRelease (s : State) : State :=
  match s.tClose with
  | (.ok _, s') => { s' with handle := .none, ph := .x4Halt }
  | (.error _, s') => { s'.raise .eClose .nothing with handle := .none, ph := .x4Halt }

/-- `X4_HALT` (R176): `SEQ` has no step. Only the time passes, which is `CLK`'s step (log entry 6). -/
def phaseHalt (s : State) : State := s

/-- The step of the phase `PH` names (R24), on a state whose step has begun at time `t`. -/
def phaseStep (t : Nat) (s : State) : Host.Outcome State Fault Refusal :=
  match s.ph with
  | .i1Open => .next (phaseOpen s)
  | .i2Settle => .next (phaseSettle t s)
  | .i3Probe => .next (phaseProbe s)
  | .i4Config => .next (phaseConfig s)
  | .s1Drain => phaseDrain s
  | .s2Stamp => .next (phaseStamp s)
  | .s3Break => .next (phaseBreak s)
  | .s4BreakHold => .next (phaseBreakHold t s)
  | .s5Mab => .next (phaseMab s)
  | .s6MabHold => .next (phaseMabHold t s)
  | .s7Write => .next (phaseWrite s)
  | .s8Pace => .next (phasePace s)
  | .d1Flush => .next (phaseFlush s)
  | .x1Clear => .next (phaseClear s)
  | .x2ZeroWrite => .next (phaseZeroWrite s)
  | .x3Release => .next (phaseRelease s)
  | .x4Halt => .next (phaseHalt s)
  | .xpBreak => .next (phaseFinalBreak s)
  | .xpBreakHold => .next (phaseFinalBreakHold t s)
  | .xpMab => .next (phaseFinalMab s)
  | .xpMabHold => .next (phaseFinalMabHold t s)

/-- One step of `SEQ`: its time passes and the phase acts. A position outside the table of R24, or one the build does not have, is no state
of the hardware and stops (log entry 8). -/
def seqStep (s : State) : Host.Outcome State Fault Refusal :=
  if s.placed then phaseStep s.now s.beginStep else .fault .illegalPosition

/-- One step of the agent the schedule names (R7, R41, R191, R206, R208). -/
def agentStep (m : Move) (s : State) : Host.Outcome State Fault Refusal :=
  match m with
  | .seq => seqStep s
  | .send w => .next (s.hostSend w)
  | .receive => .next s.hostReceive
  | .closeTx => .next s.hostCloseTx
  | .closeRx => .next s.hostCloseRx
  | .tick d => .next (s.clockTick d)
  | .otherOpen i => .next (s.otherOpen i)
  | .otherClose i => .next (s.otherClose i)

end Sys2Proof.Machine
end

