-- ==== Sys2Proof/Machine/Step.lean ====
section
/-! DEFINITION. One step of the machine, and the placing of a command where the next step fetches it. -/

namespace Sys2Proof.Machine

/-- One step: the agent at the head of the schedule moves, and past the schedule's end an agent no rule names (R7, R38, R41; log entry 1). -/
def step (s : State) : Host.Outcome State Fault Refusal := agentStep s.nextMove s.advanced

/-- `s` with the command of an opcode-table word as the head of `CQ` and the sequencer about to pop it. A word that decodes
to no command is refused at the port and changes nothing (R78). -/
def State.withFetchWord (s : State) (nbits w : Nat) : State :=
  match decodeTableWord nbits w with
  | some i => s.placeCommand i
  | none => s

end Sys2Proof.Machine
end

