-- ==== Sys2Proof/Safety.lean ====
section
/-! DEFINITION. The terms claims use: whose turn it is, the state a step of `SEQ` acts on, runs, the end of a run (R265), the successor table
of R24, the language of `TRACE` (R180), and the invariant of the machine. Where a build with `FINAL_PREAMBLE = true` differs from the spec's,
the definition has the value of `FINAL_PREAMBLE` as an argument; with `false` it is the rule it names (log entry 25). -/

namespace Sys2Proof.Machine

/-! ## Turns and runs -/

/-- It is `SEQ`'s turn: the next move is its. -/
abbrev State.seqTurn (s : State) : Prop := s.nextMove = .seq

/-- The next `n` moves are `SEQ`'s: no other agent moves. -/
abbrev State.seqTurns (s : State) (n : Nat) : Prop := s.sched.take n = List.replicate n .seq

/-- The state a step of `SEQ` acts on: the schedule has advanced, the step's draw is taken and its time has passed. -/
def State.begun (s : State) : State := s.advanced.beginStep

/-- `SEQ` is at phase `p`, in the loop state R24 gives it. -/
abbrev State.atPhase (s : State) (p : Phase) : Prop := s.ls = p.loopState ∧ s.ph = p

/-- `k` steps of the machine, stopping at the first that answers no next state. -/
def runs (k : Nat) (s : State) : Host.Outcome State Fault Refusal := Sys2Proof.core.run k s

/-- The end of a run (R265): a function of the state alone. -/
abbrev State.halted (s : State) : Prop := s.atPhase .x4Halt

/-! ## The successor table of R24 -/

/-- The phases that may follow, by the table of R24, and with a final preamble by log entry 25. -/
def Phase.successors (finalPreamble : Bool) : Phase → List Phase
  | .i1Open => [.i2Settle, .x4Halt]
  | .i2Settle => [.i3Probe]
  | .i3Probe => [.i4Config]
  | .i4Config => [.s1Drain, .x1Clear]
  | .s1Drain => [.s1Drain, .s2Stamp, .d1Flush]
  | .s2Stamp => [.s3Break]
  | .s3Break => [.s4BreakHold, .s8Pace]
  | .s4BreakHold => [.s5Mab]
  | .s5Mab => [.s6MabHold, .s8Pace]
  | .s6MabHold => [.s7Write]
  | .s7Write => [.s8Pace]
  | .s8Pace => [.s1Drain]
  | .d1Flush => [.x1Clear]
  | .x1Clear => if finalPreamble then [.xpBreak] else [.x2ZeroWrite]
  | .x2ZeroWrite => [.x3Release]
  | .x3Release => [.x4Halt]
  | .x4Halt => []
  | .xpBreak => [.xpBreakHold, .x2ZeroWrite]
  | .xpBreakHold => [.xpMab]
  | .xpMab => [.xpMabHold, .x2ZeroWrite]
  | .xpMabHold => [.x2ZeroWrite]

/-- The phases in which `SEQ` waits for `NOW` to grow (R12, R153, R164, R166, R168). -/
def Phase.waits : Phase → Bool
  | .i2Settle | .s4BreakHold | .s6MabHold | .s8Pace | .xpBreakHold | .xpMabHold => true
  | _ => false

/-- The arrows of R23. -/
def LoopState.arrow : LoopState → LoopState → Bool
  | .initializing, .running => true
  | .initializing, .closed => true
  | .running, .draining => true
  | .draining, .closed => true
  | _, _ => false

/-- The primitives a step of `SEQ` may issue, by the table of R105: at each phase, and in `S1_DRAIN` by the command at the head of `CQ`. A build with a
final preamble also issues the break primitives there (log entry 25). -/
def State.mayIssue (s : State) : Prim → Prop
  | .tOpen i => s.ph = .i1Open ∧ i = s.devIndex
  | .tConfigure l r w =>
    (s.ph = .i4Config ∨ s.ph = .s1Drain ∧ s.cq.head? = some .reset) ∧ l = s.lineCfg ∧ r = s.rdTimeoutMs ∧ w = s.wrTimeoutMs
  | .tEnumerate => s.ph = .s1Drain ∧ s.cq.head? = some .listDevices
  | .tSetBreak => s.ph = .s3Break ∨ s.params.finalPreamble = true ∧ s.ph = .xpBreak
  | .tClearBreak => s.ph = .s5Mab ∨ s.params.finalPreamble = true ∧ s.ph = .xpMab
  | .tWrite b => (s.ph = .s7Write ∨ s.ph = .x2ZeroWrite) ∧ b = s.fb.frame
  | .tClose => s.ph = .x3Release
  | .tStatus | .tReset | .tPurge | .tRead => False

/-! ## The language of `TRACE` -/

/-- `Z513`: the all-zero frame (95_test_vectors.md). -/
@[irreducible] def zeroFrame : List Byte := List.replicate Config.nslots 0#8

/-- Where a trace stands in the expression of R180, and in the final preamble of a build that has one (log entry 25). -/
inductive TraceMode where
  /-- Before `open`. -/
  | start
  /-- After `open+`. -/
  | opened
  /-- After `open+ cfg+`, between whole cycles: a drain, or the tail. -/
  | cycling
  /-- After `sb+`. -/
  | broken
  /-- After `sb+ cb+`. -/
  | marking
  /-- After `open+ cfg-`. -/
  | closing
  /-- After the `sb+` of a final preamble. -/
  | finalBroken
  /-- After a final preamble, whole or failed: only the final `w?` can follow. -/
  | finalReady
  /-- After the final `w?`. -/
  | zeroed
  /-- After `open-` or `close?`. -/
  | ended
  deriving DecidableEq, Repr

/-- Whether an answer is an `Err`. -/
def Answer.isErr : Answer → Bool
  | .err _ => true
  | _ => false

/-- The two continuations of a primitive that carries no data (R91): after `Ok` and after `Err`. -/
def TraceEntry.branch (e : TraceEntry) (afterOk afterErr : TraceMode) : List TraceMode :=
  match e.result with
  | .ok => [afterOk]
  | .err _ => [afterErr]
  | .okDevices _ | .okBytes _ => []

/-- The continuation of an enumeration (R103): after a list or after `Err`. -/
def TraceEntry.afterEnumerate (e : TraceEntry) : List TraceMode :=
  match e.result with
  | .okDevices _ | .err _ => [.cycling]
  | .ok | .okBytes _ => []

/-- The final frame, which is the all-zero one (R177). -/
def TraceEntry.finalFrame (e : TraceEntry) (bytes : List Byte) : List TraceMode :=
  if bytes = zeroFrame then e.branch .zeroed .zeroed else []

/-- Where the trace may stand after one more event. With `FINAL_PREAMBLE = false` there is one place at most, by the expression of R180; with `true`
the tail is `( sb- | sb+ cb- | sb+ cb+ ) w? close?`, whose first event may also be that of one more cycle. -/
def TraceMode.next (finalPreamble : Bool) (m : TraceMode) (e : TraceEntry) : List TraceMode :=
  match m with
  | .start =>
    match e.op with
    | .tOpen _ => e.branch .opened .ended
    | _ => []
  | .opened =>
    match e.op with
    | .tConfigure _ _ _ => e.branch .cycling .closing
    | _ => []
  | .cycling =>
    match e.op with
    | .tConfigure _ _ _ => e.branch .cycling .cycling
    | .tEnumerate => e.afterEnumerate
    | .tSetBreak => e.branch .broken .cycling ++ if finalPreamble then e.branch .finalBroken .finalReady else []
    | .tWrite bytes => if finalPreamble then [] else e.finalFrame bytes
    | _ => []
  | .broken =>
    match e.op with
    | .tClearBreak => e.branch .marking .cycling
    | _ => []
  | .marking =>
    match e.op with
    | .tWrite _ => e.branch .cycling .cycling
    | _ => []
  | .closing =>
    match e.op with
    | .tSetBreak => if finalPreamble then e.branch .finalBroken .finalReady else []
    | .tWrite bytes => if finalPreamble then [] else e.finalFrame bytes
    | _ => []
  | .finalBroken =>
    match e.op with
    | .tClearBreak => e.branch .finalReady .finalReady
    | _ => []
  | .finalReady =>
    match e.op with
    | .tWrite bytes => e.finalFrame bytes
    | _ => []
  | .zeroed =>
    match e.op with
    | .tClose => e.branch .ended .ended
    | _ => []
  | .ended => []

/-- Read a trace from its first event: the places where it may stand. There is none exactly where it is no prefix of a word of the language. -/
def traceModes (finalPreamble : Bool) (trace : List TraceEntry) : List TraceMode :=
  trace.foldl (fun ms e => ms.flatMap fun m => m.next finalPreamble e) [.start]

/-- The places of the trace expression at which each phase can stand. -/
def Phase.modes (finalPreamble : Bool) : Phase → List TraceMode
  | .i1Open => [.start]
  | .i2Settle | .i3Probe | .i4Config => [.opened]
  | .s1Drain | .s2Stamp | .s3Break | .s8Pace => [.cycling]
  | .s4BreakHold | .s5Mab => [.broken]
  | .s6MabHold | .s7Write => [.marking]
  | .d1Flush => [.cycling]
  | .x1Clear | .xpBreak => [.cycling, .closing]
  | .xpBreakHold | .xpMab => [.finalBroken]
  | .xpMabHold => [.finalReady]
  | .x2ZeroWrite => if finalPreamble then [.finalReady] else [.cycling, .closing]
  | .x3Release => [.zeroed]
  | .x4Halt => [.ended]

/-- The trace is a prefix of a word of R180's language (with a final preamble: of the language log entry 25 gives), and may stand where
the phase says. -/
def State.traceShape (s : State) : Prop :=
  ∃ m ∈ s.ph.modes s.params.finalPreamble, m ∈ traceModes s.params.finalPreamble s.trace

/-! ## The preamble's spacing -/

/-- Every `T_CLEAR_BREAK` that directly follows a successful `T_SET_BREAK` comes `hold` µs after it or later, and every
`T_WRITE` that directly follows a successful `T_CLEAR_BREAK` comes `mab` µs after it or later (R169). -/
def spaced (hold mab : Nat) : List TraceEntry → Prop
  | [] => True
  | [_] => True
  | e :: f :: l =>
    (e.op = .tSetBreak → e.result = .ok → f.op = .tClearBreak → e.t + hold ≤ f.t) ∧
    (e.op = .tClearBreak → e.result = .ok → (∃ b, f.op = .tWrite b) → e.t + mab ≤ f.t) ∧ spaced hold mab (f :: l)

/-- The instant a hold counts from: the last event's time, the sleep in progress not ending before it is over (R42, R164, R166). -/
def State.heldSince (s : State) (op : Prim) (hold : Nat) : Prop :=
  ∃ e, s.trace.getLast? = some e ∧ e.op = op ∧ e.result = .ok ∧ e.t ≤ s.now ∧ ∀ w, s.wake = some w → e.t + hold ≤ w

/-- After a hold is over. -/
def State.heldFor (s : State) (op : Prim) (hold : Nat) : Prop :=
  ∃ e, s.trace.getLast? = some e ∧ e.op = op ∧ e.result = .ok ∧ e.t + hold ≤ s.now

/-- The spacing of the preamble under `Adequate` (R169), with what the phases of a preamble keep for it, those of a final preamble too. -/
def State.preambleSpaced (s : State) : Prop :=
  s.tc = .adequate →
    spaced s.params.breakHoldUs s.params.mabHoldUs s.trace ∧
    (s.ph = .s4BreakHold → s.heldSince .tSetBreak s.params.breakHoldUs) ∧
    (s.ph = .s5Mab → s.heldFor .tSetBreak s.params.breakHoldUs) ∧
    (s.ph = .s6MabHold → s.heldSince .tClearBreak s.params.mabHoldUs) ∧
    (s.ph = .s7Write → s.heldFor .tClearBreak s.params.mabHoldUs) ∧
    (s.ph = .xpBreakHold → s.heldSince .tSetBreak s.params.breakHoldUs) ∧
    (s.ph = .xpMab → s.heldFor .tSetBreak s.params.breakHoldUs) ∧
    (s.ph = .xpMabHold → s.heldSince .tClearBreak s.params.mabHoldUs) ∧
    (s.ph = .x2ZeroWrite → ∀ e, s.trace.getLast? = some e → e.op = .tClearBreak → e.result = .ok → e.t + s.params.mabHoldUs ≤ s.now)

/-! ## The invariant -/

/-- The handle is held exactly from the success of `I1_OPEN` to `X3_RELEASE` (R29). -/
def Phase.holdsHandle : Phase → Bool
  | .i1Open | .x4Halt => false
  | _ => true

/-- The phases in which the Frame Buffer is all zero: before the first drain and after `X1_CLEAR` (R152, R173, R176). -/
def Phase.blankBuffer : Phase → Bool
  | .i1Open | .i2Settle | .i3Probe | .i4Config | .x2ZeroWrite | .x3Release | .x4Halt | .xpBreak | .xpBreakHold | .xpMab | .xpMabHold => true
  | _ => false

/-- The phases that come before the probe has classified the timer (R24, R25). -/
def Phase.beforeProbe : Phase → Bool
  | .i1Open | .i2Settle | .i3Probe => true
  | _ => false

/-- The phases between the stamp of a cycle and the end of its pacing (R162, R168), in which `CYCLE_START` is that of the cycle. -/
def Phase.inCycle : Phase → Bool
  | .s3Break | .s4BreakHold | .s5Mab | .s6MabHold | .s7Write | .s8Pace => true
  | _ => false

/-- The bits of `ERR` that are never set (R221, V-ERR): 0, 8 and 12 to 15. -/
def errReserved : BitVec 16 := 0xF101#16

/-- What holds in every state reachable from reset. -/
structure State.Inv (s : State) : Prop where
  /-- `PH` lies in `LS` (R24) and is a phase the build has. -/
  position     : s.placed
  /-- The Frame Buffer is in canonical form and has no slot above 512 (R57). -/
  bufferWf     : s.fb.wf = true
  /-- `FB[0] = 0` (R22). -/
  startCode    : s.fb.read 0 = 0#8
  /-- The buffer is all zero before the first drain and after `X1_CLEAR` (R152, R176). -/
  blank        : s.ph.blankBuffer = true → s.fb = []
  /-- `HANDLE` is open exactly while the device is held (R29). -/
  handleHeld   : s.handle = .opened ↔ s.ph.holdsHandle = true
  /-- An open handle's index is in `DEV_OPEN` (R43). -/
  ownsDevice   : s.handle = .opened → s.devIndex ∈ s.devOpen
  /-- `TC` is determined from `I4_CONFIG` on and in `Running` (R122, R123). -/
  classified   : s.ls = .running ∨ s.ph = .i4Config → s.tc ≠ .unknown
  /-- `TC` is not yet determined before `I3_PROBE` (R25). -/
  unmeasured   : s.ph.beforeProbe = true → s.tc = .unknown
  /-- A timestamp the block has taken is an earlier reading of the clock (R135): `T0` while the handle is held, `CYCLE_START` from the stamp of
  a cycle to the end of its pacing. Of the value before the first stamp nothing is said (R48, U16). -/
  stamped      : (s.handle = .opened → s.t0 ≤ s.now) ∧ (s.ph.inCycle = true → s.cycleStart ≤ s.now)
  /-- `TARGET_MS` is at least 1 (R28). -/
  targetPos    : 1 ≤ s.targetMs
  /-- The reserved bits of `ERR` are 0 (R221). -/
  reservedBits : s.err &&& errReserved = 0#16
  /-- Every queued command came in as a word of `CMD_BITS` bits (R71, R73). -/
  queueWf      : ∀ i ∈ s.cq, i.wfIn s.params.format = true
  /-- A sleep is in progress only in a phase that sleeps, and after the settle delay only under `Adequate` (R42, R123). -/
  awake        : s.wake ≠ none → s.ph.waits = true ∧ (s.ph = .i2Settle ∨ s.tc = .adequate)
  /-- `TRACE` has the shape of R180, or with a final preamble that of log entry 25. -/
  shape        : s.traceShape

end Sys2Proof.Machine
end

