-- ==== Sys2Proof/Certificates/Slice0/Obligations.lean ====
section
/-! DEFINITION. The statements for the provers, in the order of OBLIGATIONS.json. In each, `u` is `s.begun`: the state a step of `SEQ` acts on,
its draw taken and its time passed, so that `u.now` is `NOW` at the end of the step (95_test_vectors.md V-SEQ, R45). -/

open Sys2Proof Sys2Proof.Machine

/-! ## Encoding -/

/-- R83: the codec loses no bit in either direction; and R14: nor does it at any other widths that hold the five tags (where the fields lie
at other widths is the model's choice, log entry 24). -/
def Obligations.DecodeEncodeRoundTrip : Prop :=
  (∀ i : Instr, i.wf = true → decode (encode i) = .ok i) ∧
  (∀ (w : Word) (i : Instr), decode w = .ok i → encode i = w ∧ i.wf = true) ∧
  ∀ f : CmdFormat, f.wf = true →
    (∀ i : Instr, i.wfIn f = true → f.encode i < 2 ^ f.cmdBits ∧ f.decode (f.encode i) = .ok i) ∧
    (∀ (w : Nat) (i : Instr), f.decode w = .ok i → f.encode i = w ∧ i.wfIn f = true)

/-- R75, R76: `SetChannel(c, v)` encodes as `c * 256 + v`, the decoder is the table of masks and matches, and every other word is invalid. -/
def Obligations.DecodeIsTheOpcodeTable : Prop :=
  (∀ (c : Nat) (v : Byte), c < 65536 → (encode (.setChannel c v)).toNat = c * 256 + v.toNat) ∧
  ∀ w : Word,
    (w &&& 0xFF000000#32 = 0x00000000#32 →
      decode w = .ok (.setChannel ((w.toNat / 256) % 65536) (BitVec.ofNat 8 (w.toNat % 256)))) ∧
    (decode w = .ok .stop ↔ w = 0x01000000#32) ∧
    (decode w = .ok .reset ↔ w = 0x02000000#32) ∧
    (decode w = .ok .clearFrame ↔ w = 0x03000000#32) ∧
    (decode w = .ok .listDevices ↔ w = 0x04000000#32) ∧
    ((∃ c v, decode w = .ok (.setChannel c v)) ↔ w &&& 0xFF000000#32 = 0x00000000#32) ∧
    ((0x05#8 ≤ w.extractLsb' 24 8) ↔ decode w = .error .reservedTag) ∧
    ((0x01#8 ≤ w.extractLsb' 24 8 ∧ w.extractLsb' 24 8 ≤ 0x04#8 ∧ w.extractLsb' 0 24 ≠ 0#24) ↔ decode w = .error .operandBits)

/-- V-ENC: words written out from the table of R75. -/
def Obligations.SampleWordsDecode : Prop :=
  decode 0x00000205#32 = .ok (.setChannel 2 5#8) ∧ decode 0x000200FF#32 = .ok (.setChannel 512 255#8) ∧
  decode 0x00FFFFFF#32 = .ok (.setChannel 65535 255#8) ∧ decode 0x01000000#32 = .ok .stop ∧
  decode 0x02000000#32 = .ok .reset ∧ decode 0x03000000#32 = .ok .clearFrame ∧ decode 0x04000000#32 = .ok .listDevices ∧
  decode 0x01000001#32 = .error .operandBits ∧ decode 0x04800000#32 = .error .operandBits ∧
  decode 0x05000000#32 = .error .reservedTag ∧ decode 0xFFFFFFFF#32 = .error .reservedTag

/-- R77: the response header gives the number of descriptors back, is never produced with another `RTAG`, and a longer list has none. -/
def Obligations.ResponseHeaderCounts : Prop :=
  (∀ l : List Descriptor, l.length ≤ 65535 →
    ∃ h, responseHeader (.deviceList l) = some h ∧ h.toNat = l.length ∧ decodeHeader h = some l.length) ∧
  (∀ l : List Descriptor, 65535 < l.length → responseHeader (.deviceList l) = none ∧ encodeResponse (.deviceList l) = none) ∧
  (∀ h n, decodeHeader h = some n → h.extractLsb' 24 8 = 0#8 ∧ h.extractLsb' 16 8 = 0#8 ∧ n ≤ 65535)

/-! ## A step runs the decoded command -/

/-- A command word offered at `CMD_IN` is queued as the command it decodes to; a step of `SEQ` at `S1_DRAIN` is `exec` of the head of `CQ`;
and `withFetchWord` places a word exactly there. -/
def Obligations.StepRunsTheDecodedCommand : Prop :=
  (∀ (s : State) (w : Nat) (i : Instr), s.nextMove = .send w → s.cqTxOpen = true → s.params.format.decode w = .ok i →
    step s = .next { s.advanced with cq := s.cq ++ [i] }) ∧
  (∀ (s : State) (i : Instr) (rest : List Instr), s.seqTurn → s.atPhase .s1Drain → s.cq = i :: rest →
    step s = exec i { s.begun with cq := rest }) ∧
  (∀ (s : State) (w : Nat) (i : Instr), decodeTableWord 32 w = some i →
    step (s.withFetchWord 32 w) = exec i { (s.placeCommand i).begun with cq := s.cq })

/-! ## The Frame Buffer -/

/-- R112: `FB_SET`. -/
def Obligations.FbSetWritesOneSlot : Prop :=
  ∀ (m : Memory) (c : Nat) (v : Byte), m.wf = true →
    (1 ≤ c ∧ c ≤ 512 →
      (fbSet m c v).1 = .ok () ∧ (fbSet m c v).2.read c = v ∧ (∀ d, d ≠ c → (fbSet m c v).2.read d = m.read d) ∧
      (fbSet m c v).2.wf = true ∧ (v = m.read c → (fbSet m c v).2 = m)) ∧
    (¬(1 ≤ c ∧ c ≤ 512) → fbSet m c v = (.error .bounds, m))

/-- R117: the four laws of the accessors. -/
def Obligations.AccessorLaws : Prop :=
  ∀ m : Memory, m.wf = true →
    (∀ (c : Nat) (v : Byte), 1 ≤ c → c ≤ 512 → fbGet (fbSet m c v).2 c = .ok v) ∧
    (∀ (c d : Nat) (v : Byte), 1 ≤ c → c ≤ 512 → 1 ≤ d → d ≤ 512 → c ≠ d →
      fbGet (fbSet m c v).2 d = fbGet m d ∧ (fbSet m c v).2.read 0 = m.read 0) ∧
    (∀ (c : Nat) (v : Byte), c = 0 ∨ 513 ≤ c → fbSet m c v = (.error .bounds, m) ∧ fbGet m c = .error .bounds) ∧
    (∀ c, 1 ≤ c → c ≤ 512 → fbGet (fbClear m) c = .ok 0#8) ∧ (fbClear m).read 0 = 0#8

/-- R113 and R114: `FB_GET` reads the local cache and has no side effect; `FB_CLEAR` zeroes every slot, slot 0 included. -/
def Obligations.FbGetAndFbClear : Prop :=
  (∀ (m : Memory) (c : Nat), (1 ≤ c ∧ c ≤ 512 → fbGet m c = .ok (m.read c)) ∧ (¬(1 ≤ c ∧ c ≤ 512) → fbGet m c = .error .bounds)) ∧
  (∀ c, 1 ≤ c → c ≤ 512 → fbGet State.reset.fb c = .ok 0#8) ∧
  (∀ (m : Memory) (k : Nat), (fbClear m).read k = 0#8) ∧ (∀ m : Memory, (fbClear m).wf = true) ∧
  (∀ m : Memory, m.wf = true → (∀ k, m.read k = 0#8) → fbClear m = m)

/-- R115: `FB_SYNC` copies from slot 0 up to the buffer's length and leaves the trailing slots of a shorter input. -/
def Obligations.FbSyncCopiesAPrefix : Prop :=
  ∀ (m : Memory) (raw : List Byte), m.wf = true →
    (fbSync m raw).wf = true ∧
    (∀ (k : Nat) (h : k < raw.length), k ≤ 512 → (fbSync m raw).read k = raw[k]) ∧
    (∀ k, min raw.length 513 ≤ k → (fbSync m raw).read k = m.read k)

/-- Equal buffers are equal data: the canonical form has one list for each contents of the 513 slots. -/
def Obligations.CanonicalBufferIsUnique : Prop :=
  ∀ m m' : Memory, m.wf = true → m'.wf = true → (∀ k, k < 513 → m.read k = m'.read k) → m = m'

/-- R51: the frame image is `FB[0]` first, `FB[512]` last, always 513 bytes, and channel `c` is its `(c+1)`-th byte. -/
def Obligations.FrameImageIsEverySlotInOrder : Prop :=
  ∀ m : Memory, m.frame.length = 513 ∧ (∀ (k : Nat) (h : k < m.frame.length), m.frame[k] = m.read k) ∧
    m.memRead 0 513 = some m.frame

/-! ## Arithmetic -/

/-- R131: `TARGET_MS` is `1 000 000 / FREQ` rounded half up in exact arithmetic, and at least 1. Reset computes it, and refuses `FREQ = 0`. -/
def Obligations.TargetIsRoundedHalfUp : Prop :=
  (∀ f : Nat, 1 ≤ f → f < 2 ^ 32 →
    targetRaw f = ⌊(1000000 : ℚ) / f + 1 / 2⌋₊ ∧ targetMsOf f = max 1 ⌊(1000000 : ℚ) / f + 1 / 2⌋₊) ∧
  (∀ (c : Latches) (p : Params) (now : Nat) (dev : List Word),
    (c.freq = 0#32 → State.create c p now dev = .refused .freqZero) ∧
    (c.freq ≠ 0#32 → ∃ s, State.create c p now dev = .next s ∧ s.targetMs = max 1 ⌊(1000000 : ℚ) / c.freq.toNat + 1 / 2⌋₊))

/-- R133: the table of values (`raw` and `TARGET_MS`), that the target never grows with `FREQ`, and that no intermediate reaches 2^33. -/
def Obligations.TargetTableAndMonotone : Prop :=
  ([1, 25000, 39999, 40000, 44000, 80000, 400000, 666666, 666667, 1000000, 2000000, 2000001, 4294967295].map targetMsOf
    = [1000000, 40, 25, 25, 23, 13, 3, 2, 1, 1, 1, 1, 1]) ∧
  ([1, 25000, 39999, 40000, 44000, 80000, 400000, 666666, 666667, 1000000, 2000000, 2000001, 4294967295].map targetRaw
    = [1000000, 40, 25, 25, 23, 13, 3, 2, 1, 1, 1, 0, 0]) ∧
  (∀ f g : Nat, 1 ≤ f → f ≤ g → targetMsOf g ≤ targetMsOf f) ∧
  (∀ f : Nat, f < 2 ^ 32 → 2000000 + f < 2 ^ 33) ∧
  (∀ (c : Latches) (p : Params) (now : Nat) (dev : List Word), c.freq = 0#32 → State.create c p now dev = .refused .freqZero)

/-! ## Reset -/

/-- R262: reset is refused when `FREQ = 0` and only then; a device index at which no device exists fails later, in `I1_OPEN`. -/
def Obligations.ResetRefusesOnlyZeroFrequency : Prop :=
  ∀ (c : Latches) (p : Params) (now : Nat) (dev : List Word),
    (c.freq = 0#32 → State.create c p now dev = .refused .freqZero) ∧
    (c.freq ≠ 0#32 → ∃ s, State.create c p now dev = .next s ∧
      ∀ (sched : List Move) (draws : List Draw), c.devIndex ∉ dev →
        ({ s with sched := .seq :: sched, draws := draws } : State).nextDraw.answersOk = false →
        ∃ t, step { s with sched := .seq :: sched, draws := draws } = .next t ∧ t.halted ∧ t.err = 0x0002#16 ∧
          t.log = [⟨t.now, .eOpen, .device c.devIndex⟩])

/-- R48, R261: what reset leaves, less the values log entry 3 names; and R2: the identity is the build's and the instance's. -/
def Obligations.ResetLeavesTheValuesOfTheTable : Prop :=
  ∀ (c : Latches) (p : Params) (now : Nat) (dev : List Word) (s : State), State.create c p now dev = .next s →
    (∀ k, s.fb.read k = 0#8) ∧ s.atPhase .i1Open ∧ s.ls = .initializing ∧ s.tc = .unknown ∧ s.handle = .none ∧ s.brk = false ∧
    s.err = 0#16 ∧ s.cq = [] ∧ s.rq = [] ∧ s.trace = [] ∧ s.log = [] ∧ s.cqTxOpen = true ∧ s.rqRxOpen = true ∧
    s.devIndex = c.devIndex ∧ s.freq = c.freq ∧ s.rdTimeoutMs = c.rdTimeoutMs ∧ s.wrTimeoutMs = c.wrTimeoutMs ∧
    s.lineCfg = c.lineCfg ∧ s.targetMs = max 1 ((2000000 + c.freq.toNat) / (2 * c.freq.toNat)) ∧
    s.now = now ∧ s.devOpen = dev ∧ s.line = .unknown ∧ s.identity = Config.identity p c

/-! ## The commands -/

/-- R200: `SetChannel` runs on every state and every operand. -/
def Obligations.SetChannelResult : Prop :=
  ∀ (s : State) (c : Nat) (v : Byte),
    (1 ≤ c ∧ c ≤ 512 → exec (.setChannel c v) s = .next { s with fb := s.fb.write c v } ∧
      (s.fb.wf = true → (s.fb.write c v).read c = v)) ∧
    (¬(1 ≤ c ∧ c ≤ 512) → exec (.setChannel c v) s =
      .next { s with err := s.err ||| 0x0010#16, log := s.log ++ [⟨s.now, .eBounds, .index c⟩] })

/-- R201: `Stop` runs on every state and writes the position alone. -/
def Obligations.StopResult : Prop :=
  ∀ s : State, exec .stop s = .next { s with ls := .draining, ph := .d1Flush }

/-- R202: `Reset` runs on every state; a failure is recorded and is not fatal. -/
def Obligations.ResetResult : Prop :=
  ∀ s : State,
    (s.cur.answersOk = true → exec .reset s = .next { s with
      trace := s.trace ++ [⟨s.now, .tConfigure s.lineCfg s.rdTimeoutMs s.wrTimeoutMs, .ok⟩], line := .unknown }) ∧
    (s.cur.answersOk = false → exec .reset s = .next { s with
      trace := s.trace ++ [⟨s.now, .tConfigure s.lineCfg s.rdTimeoutMs s.wrTimeoutMs, .err .configFailed⟩], line := .unknown,
      err := s.err ||| 0x0008#16, log := s.log ++ [⟨s.now, .eConfig, .reset⟩] })

/-- R203: `ClearFrame` runs on every state; every slot reads 0 afterwards, slot 0 included. -/
def Obligations.ClearFrameResult : Prop :=
  ∀ s : State, ∃ t, exec .clearFrame s = .next t ∧ t = { s with fb := t.fb } ∧ (∀ k, t.fb.read k = 0#8) ∧ t.fb.wf = true

/-- R204, R207: `ListDevices` runs on every state and attempts exactly one response; a failed enumeration sends the empty list, and to a
closed receiver the response is dropped, with `E_ENUM` recorded before `E_RSP_SEND`. -/
def Obligations.ListDevicesResult : Prop :=
  ∀ s : State,
    (s.cur.answersOk = true → s.rqRxOpen = true → exec .listDevices s = .next { s with
      trace := s.trace ++ [⟨s.now, .tEnumerate, .okDevices s.cur.devices⟩], rq := s.rq ++ [.deviceList s.cur.devices] }) ∧
    (s.cur.answersOk = true → s.rqRxOpen = false → exec .listDevices s = .next { s with
      trace := s.trace ++ [⟨s.now, .tEnumerate, .okDevices s.cur.devices⟩],
      err := s.err ||| 0x0400#16, log := s.log ++ [⟨s.now, .eRspSend, .nothing⟩] }) ∧
    (s.cur.answersOk = false → s.rqRxOpen = true → exec .listDevices s = .next { s with
      trace := s.trace ++ [⟨s.now, .tEnumerate, .err .enumFailed⟩], rq := s.rq ++ [.deviceList []],
      err := s.err ||| 0x0200#16, log := s.log ++ [⟨s.now, .eEnum, .nothing⟩] }) ∧
    (s.cur.answersOk = false → s.rqRxOpen = false → exec .listDevices s = .next { s with
      trace := s.trace ++ [⟨s.now, .tEnumerate, .err .enumFailed⟩],
      err := s.err ||| 0x0600#16, log := s.log ++ [⟨s.now, .eEnum, .nothing⟩, ⟨s.now, .eRspSend, .nothing⟩] })

/-- The frame of `SetChannel`: nothing but the Frame Buffer, or on a bounds error `ERR` and `LOG`, and of the buffer no slot but the one its
index names. -/
def Obligations.SetChannelFrame : Prop :=
  ∀ (s t : State) (c : Nat) (v : Byte), exec (.setChannel c v) s = .next t →
    t = { s with fb := t.fb, err := t.err, log := t.log } ∧
    (∀ a, ¬(validChannel (operandSlot c) = true ∧ a = operandSlot c) → t.fb.read a = s.fb.read a) ∧
    (validChannel (operandSlot c) = true → t.err = s.err ∧ t.log = s.log) ∧
    (validChannel (operandSlot c) = false → t.err &&& ~~~0x0010#16 = s.err &&& ~~~0x0010#16)

/-- The frame of the other commands. `Stop`, `Reset` and `ListDevices` store nothing: every slot reads as before, and nothing changes but what R201,
R202 and R204 name. `ClearFrame` changes nothing but the 513 slots. -/
def Obligations.OtherCommandsFrame : Prop :=
  ∀ s t : State,
    (exec .stop s = .next t → t = { s with ls := t.ls, ph := t.ph } ∧ ∀ a, t.fb.read a = s.fb.read a) ∧
    (exec .reset s = .next t → t = { s with trace := t.trace, line := t.line, err := t.err, log := t.log } ∧
      (∀ a, t.fb.read a = s.fb.read a) ∧ t.err &&& ~~~0x0008#16 = s.err &&& ~~~0x0008#16) ∧
    (exec .listDevices s = .next t → t = { s with trace := t.trace, rq := t.rq, err := t.err, log := t.log } ∧
      (∀ a, t.fb.read a = s.fb.read a) ∧ t.err &&& ~~~0x0600#16 = s.err &&& ~~~0x0600#16) ∧
    (exec .clearFrame s = .next t → t = { s with fb := t.fb } ∧
      (s.fb.wf = true → ∀ a, 513 ≤ a → t.fb.read a = s.fb.read a))

/-! ## Errors, responses and the other agents -/

/-- R222: `raise` sets the error's sticky bit and appends one event to `LOG`, and changes nothing else; each error of R221 has its own bit. -/
def Obligations.RaiseRecordsAndNothingElse : Prop :=
  (∀ (s : State) (e : ErrCode) (info : ErrInfo),
    s.raise e info = { s with err := (s.raise e info).err, log := s.log ++ [⟨s.now, e, info⟩] } ∧
    ∀ k : Nat, k < 16 → (s.raise e info).err.getLsbD k = (s.err.getLsbD k || decide (k = e.code))) ∧
  [ErrCode.eOpen, .eExcl, .eConfig, .eBounds, .eBreakOn, .eBreakOff, .eWrite, .eRead, .eEnum, .eRspSend, .eClose].map ErrCode.code
    = [1, 2, 3, 4, 5, 6, 7, 8, 9, 10, 11]

/-- R207: the send on the response path. -/
def Obligations.ResponseSend : Prop :=
  ∀ (s : State) (m : Response),
    (s.rqRxOpen = true → s.rspSend m = { s with rq := s.rq ++ [m] }) ∧
    (s.rqRxOpen = false → s.rspSend m =
      { s with err := s.err ||| 0x0400#16, log := s.log ++ [⟨s.now, .eRspSend, .nothing⟩] })

/-- R43, R93: exclusivity. `T_OPEN` answers `AlreadyOpen` if and only if the index is in `DEV_OPEN`, on `Ok` it adds it, and `T_CLOSE` removes it
whatever it answers. -/
def Obligations.ExclusiveOpen : Prop :=
  ∀ s : State,
    (s.tOpen.1 = .error .alreadyOpen ↔ s.devIndex ∈ s.devOpen) ∧
    (s.devIndex ∉ s.devOpen → s.cur.answersOk = true → s.tOpen.1 = .ok ()) ∧
    (s.devIndex ∉ s.devOpen → s.cur.answersOk = false → s.tOpen.1 = .error .openFailed) ∧
    (∀ j, s.tOpen.1 = .ok () → (j ∈ s.tOpen.2.devOpen ↔ j = s.devIndex ∨ j ∈ s.devOpen)) ∧
    (∀ j k, s.tOpen.1 = .error k → (j ∈ s.tOpen.2.devOpen ↔ j ∈ s.devOpen)) ∧
    (∀ j, j ∈ s.tClose.2.devOpen ↔ j ∈ s.devOpen ∧ j ≠ s.devIndex)

/-- R191, R206, R208: the host's four steps, possible in every state of the sequencer. -/
def Obligations.HostSteps : Prop :=
  ∀ s : State,
    (∀ w, s.nextMove = .send w →
      (∀ i, s.params.format.decode w = .ok i → s.cqTxOpen = true → step s = .next { s.advanced with cq := s.cq ++ [i] }) ∧
      (∀ x, s.params.format.decode w = .error x → step s = .next s.advanced) ∧
      (s.cqTxOpen = false → step s = .next s.advanced)) ∧
    (s.nextMove = .receive →
      (∀ m l, s.rq = m :: l → s.rqRxOpen = true → step s = .next { s.advanced with rq := l }) ∧
      (s.rq = [] ∨ s.rqRxOpen = false → step s = .next s.advanced)) ∧
    (s.nextMove = .closeTx → step s = .next { s.advanced with cqTxOpen := false }) ∧
    (s.nextMove = .closeRx → step s = .next { s.advanced with rqRxOpen := false })

/-- R40, R41, R43, R244: the clock only grows, and another instance's open and close of a device reach nothing but `DEV_OPEN`. That no other
instance takes out of it the index of the handle this block holds is the model's own deduction, log entry 16 (DEDUCED, unsafe), and no
sentence of these rules. -/
def Obligations.ClockAndOtherInstanceMoves : Prop :=
  ∀ s : State,
    (∀ d, s.nextMove = .tick d → step s = .next { s.advanced with now := s.now + d }) ∧
    (∀ i, s.nextMove = .otherOpen i →
      ∃ t, step s = .next t ∧ t = { s.advanced with devOpen := t.devOpen } ∧ ∀ j, j ∈ t.devOpen ↔ j = i ∨ j ∈ s.devOpen) ∧
    (∀ i, s.nextMove = .otherClose i →
      ∃ t, step s = .next t ∧ t = { s.advanced with devOpen := t.devOpen } ∧
        (∀ j, j ≠ i → (j ∈ t.devOpen ↔ j ∈ s.devOpen)) ∧
        (i ∈ t.devOpen ↔ s.handle = .opened ∧ i = s.devIndex ∧ i ∈ s.devOpen))

/-! ## The phases -/

/-- R152: `I1_OPEN`. -/
def Obligations.OpenPhase : Prop :=
  ∀ s u : State, u = s.begun → s.seqTurn → s.atPhase .i1Open →
    (s.devIndex ∈ s.devOpen → step s = .next { u with
      trace := u.trace ++ [⟨u.now, .tOpen u.devIndex, .err .alreadyOpen⟩], line := .unknown,
      err := u.err ||| 0x0004#16, log := u.log ++ [⟨u.now, .eExcl, .device u.devIndex⟩], ls := .closed, ph := .x4Halt }) ∧
    (s.devIndex ∉ s.devOpen → u.cur.answersOk = false → step s = .next { u with
      trace := u.trace ++ [⟨u.now, .tOpen u.devIndex, .err .openFailed⟩], line := .unknown,
      err := u.err ||| 0x0002#16, log := u.log ++ [⟨u.now, .eOpen, .device u.devIndex⟩], ls := .closed, ph := .x4Halt }) ∧
    (s.devIndex ∉ s.devOpen → u.cur.answersOk = true → step s = .next { u with
      trace := u.trace ++ [⟨u.now, .tOpen u.devIndex, .ok⟩], line := .unknown, devOpen := insertIndex u.devIndex u.devOpen,
      handle := .opened, t0 := u.now, ph := .i2Settle })

/-- R153, R164, R166: the three sleeps of the sequencer. A sleep leaves its phase in the first step that ends at its end or later,
and not before; without `Adequate` the two holds sleep not at all. The last clauses are the phases a build with `FINAL_PREAMBLE = true` has between
`X1_CLEAR` and `X2_ZERO_WRITE`: no rule gives them, they are the model's choice (DESIGN CHOICE, log entry 25). -/
def Obligations.SleepPhases : Prop :=
  ∀ s u : State, u = s.begun → s.seqTurn →
    (∀ w, w = s.wake.getD (s.now + s.params.settleUs) → s.atPhase .i2Settle →
      (w ≤ u.now → step s = .next { u with wake := none, ph := .i3Probe }) ∧
      (u.now < w → step s = .next { u with wake := some w })) ∧
    (∀ w, w = s.wake.getD (s.now + s.params.breakHoldUs) → s.atPhase .s4BreakHold → s.tc = .adequate →
      (w ≤ u.now → step s = .next { u with wake := none, ph := .s5Mab }) ∧
      (u.now < w → step s = .next { u with wake := some w })) ∧
    (∀ w, w = s.wake.getD (s.now + s.params.mabHoldUs) → s.atPhase .s6MabHold → s.tc = .adequate →
      (w ≤ u.now → step s = .next { u with wake := none, ph := .s7Write }) ∧
      (u.now < w → step s = .next { u with wake := some w })) ∧
    (s.atPhase .s4BreakHold → s.tc ≠ .adequate → step s = .next { u with ph := .s5Mab }) ∧
    (s.atPhase .s6MabHold → s.tc ≠ .adequate → step s = .next { u with ph := .s7Write }) ∧
    (s.params.finalPreamble = true →
      (s.atPhase .x1Clear → step s = .next { u with fb := [], ph := .xpBreak }) ∧
      (s.atPhase .xpBreak → u.cur.answersOk = true → step s = .next { u with
        trace := u.trace ++ [⟨u.now, .tSetBreak, .ok⟩], line := .breakLow, brk := true, ph := .xpBreakHold }) ∧
      (s.atPhase .xpBreak → u.cur.answersOk = false → step s = .next { u with
        trace := u.trace ++ [⟨u.now, .tSetBreak, .err .breakFailed⟩], line := .unknown,
        err := u.err ||| 0x0020#16, log := u.log ++ [⟨u.now, .eBreakOn, .nothing⟩], ph := .x2ZeroWrite }) ∧
      (∀ w, w = s.wake.getD (s.now + s.params.breakHoldUs) → s.atPhase .xpBreakHold → s.tc = .adequate →
        (w ≤ u.now → step s = .next { u with wake := none, ph := .xpMab }) ∧ (u.now < w → step s = .next { u with wake := some w })) ∧
      (s.atPhase .xpBreakHold → s.tc ≠ .adequate → step s = .next { u with ph := .xpMab }) ∧
      (s.atPhase .xpMab → u.cur.answersOk = true → step s = .next { u with
        trace := u.trace ++ [⟨u.now, .tClearBreak, .ok⟩], line := .mark, brk := false, ph := .xpMabHold }) ∧
      (s.atPhase .xpMab → u.cur.answersOk = false → step s = .next { u with
        trace := u.trace ++ [⟨u.now, .tClearBreak, .err .breakFailed⟩], line := .unknown,
        err := u.err ||| 0x0040#16, log := u.log ++ [⟨u.now, .eBreakOff, .nothing⟩], ph := .x2ZeroWrite }) ∧
      (∀ w, w = s.wake.getD (s.now + s.params.mabHoldUs) → s.atPhase .xpMabHold → s.tc = .adequate →
        (w ≤ u.now → step s = .next { u with wake := none, ph := .x2ZeroWrite }) ∧ (u.now < w → step s = .next { u with wake := some w })) ∧
      (s.atPhase .xpMabHold → s.tc ≠ .adequate → step s = .next { u with ph := .x2ZeroWrite }))

/-- R154: `I3_PROBE`, its classification spelled out. -/
def Obligations.ProbePhase : Prop :=
  ∀ s u : State, u = s.begun → s.seqTurn → s.atPhase .i3Probe →
    step s = .next { u with
      tc := if u.now - u.t0 > u.params.coarseThresholdUs then .coarse else .adequate, ph := .i4Config }

/-- R155: `I4_CONFIG`. -/
def Obligations.ConfigPhase : Prop :=
  ∀ s u : State, u = s.begun → s.seqTurn → s.atPhase .i4Config →
    (u.cur.answersOk = true → step s = .next { u with
      trace := u.trace ++ [⟨u.now, .tConfigure u.lineCfg u.rdTimeoutMs u.wrTimeoutMs, .ok⟩], line := .unknown,
      ls := .running, ph := .s1Drain }) ∧
    (u.cur.answersOk = false → step s = .next { u with
      trace := u.trace ++ [⟨u.now, .tConfigure u.lineCfg u.rdTimeoutMs u.wrTimeoutMs, .err .configFailed⟩], line := .unknown,
      err := u.err ||| 0x0008#16, log := u.log ++ [⟨u.now, .eConfig, .initial⟩], ls := .closed, ph := .x1Clear })

/-- R160, R162: `S1_DRAIN` and `S2_STAMP`. An empty queue ends the drain; `Stop` leaves `Running` at once with the commands behind it still
queued; every other command is popped and executed and the queue is looked at again. -/
def Obligations.DrainAndStampPhases : Prop :=
  ∀ s u : State, u = s.begun → s.seqTurn →
    (s.atPhase .s1Drain → s.cq = [] → step s = .next { u with ph := .s2Stamp }) ∧
    (∀ rest, s.atPhase .s1Drain → s.cq = .stop :: rest → step s = .next { u with cq := rest, ls := .draining, ph := .d1Flush }) ∧
    (∀ c rest, s.atPhase .s1Drain → s.cq = c :: rest → c ≠ .stop →
      ∃ t, step s = .next t ∧ exec c { u with cq := rest } = .next t ∧ t.cq = rest ∧ t.atPhase .s1Drain) ∧
    (s.atPhase .s2Stamp → step s = .next { u with cycleStart := u.now, ph := .s3Break })

/-- R163, R165: `S3_BREAK` and `S5_MAB`. A failed break primitive leaves `BRK` unchanged and skips to the pacing step. -/
def Obligations.BreakPhases : Prop :=
  ∀ s u : State, u = s.begun → s.seqTurn →
    (s.atPhase .s3Break → u.cur.answersOk = true → step s = .next { u with
      trace := u.trace ++ [⟨u.now, .tSetBreak, .ok⟩], line := .breakLow, brk := true, ph := .s4BreakHold }) ∧
    (s.atPhase .s3Break → u.cur.answersOk = false → step s = .next { u with
      trace := u.trace ++ [⟨u.now, .tSetBreak, .err .breakFailed⟩], line := .unknown,
      err := u.err ||| 0x0020#16, log := u.log ++ [⟨u.now, .eBreakOn, .nothing⟩], ph := .s8Pace }) ∧
    (s.atPhase .s5Mab → u.cur.answersOk = true → step s = .next { u with
      trace := u.trace ++ [⟨u.now, .tClearBreak, .ok⟩], line := .mark, brk := false, ph := .s6MabHold }) ∧
    (s.atPhase .s5Mab → u.cur.answersOk = false → step s = .next { u with
      trace := u.trace ++ [⟨u.now, .tClearBreak, .err .breakFailed⟩], line := .unknown,
      err := u.err ||| 0x0040#16, log := u.log ++ [⟨u.now, .eBreakOff, .nothing⟩], ph := .s8Pace })

/-- R167, R44: `S7_WRITE`. The frame is the 513 slots in order and the buffer is not changed, whatever the answer. Of the line after a write that
answers `Ok` it is said where `BRK = 0` (log entry 23). -/
def Obligations.WritePhase : Prop :=
  ∀ s u : State, u = s.begun → s.seqTurn → s.atPhase .s7Write →
    (u.cur.answersOk = true → ∃ l, (u.brk = false → l = .mark) ∧ step s = .next { u with
      trace := u.trace ++ [⟨u.now, .tWrite ((List.range 513).map u.fb.read), .ok⟩], line := l, ph := .s8Pace }) ∧
    (u.cur.answersOk = false → step s = .next { u with
      trace := u.trace ++ [⟨u.now, .tWrite ((List.range 513).map u.fb.read), .err .writeFailed⟩], line := .unknown,
      err := u.err ||| 0x0080#16, log := u.log ++ [⟨u.now, .eWrite, .cycle⟩], ph := .s8Pace })

/-- R135, R168: one check of the pacer. -/
def Obligations.PacePhase : Prop :=
  ∀ s u : State, u = s.begun → s.seqTurn → s.atPhase .s8Pace →
    (∀ w, s.wake = some w → u.now < w → step s = .next u) ∧
    ((∀ w, s.wake = some w → w ≤ u.now) →
      (u.targetMs * 1000 ≤ u.now - u.cycleStart → step s = .next { u with wake := none, ph := .s1Drain }) ∧
      (u.now - u.cycleStart < u.targetMs * 1000 → u.tc = .adequate →
        step s = .next { u with wake := some (u.now + u.params.yieldUs) }) ∧
      (u.now - u.cycleStart < u.targetMs * 1000 → u.tc ≠ .adequate → step s = .next { u with wake := none }))

/-- R172 to R175: `D1_FLUSH`, `X1_CLEAR`, `X2_ZERO_WRITE` and `X3_RELEASE`. After `X1_CLEAR` comes `X2_ZERO_WRITE` where `FINAL_PREAMBLE = false`, as in
the spec (SleepPhases has the other value, log entry 25). Of the line nothing is claimed after a final write that answers `Ok` while a break may
still be asserted (log entry 23), nor after `T_CLOSE` (log entry 9). -/
def Obligations.ShutdownPhases : Prop :=
  ∀ s u : State, u = s.begun → s.seqTurn →
    (s.atPhase .d1Flush → step s = .next { u with ls := .closed, ph := .x1Clear }) ∧
    (s.atPhase .x1Clear → s.params.finalPreamble = false → step s = .next { u with fb := [], ph := .x2ZeroWrite }) ∧
    (s.atPhase .x2ZeroWrite → u.cur.answersOk = true → ∃ l, (u.brk = false → l = .mark) ∧ step s = .next { u with
      trace := u.trace ++ [⟨u.now, .tWrite u.fb.frame, .ok⟩], line := l, ph := .x3Release }) ∧
    (s.atPhase .x2ZeroWrite → u.cur.answersOk = false → step s = .next { u with
      trace := u.trace ++ [⟨u.now, .tWrite u.fb.frame, .err .writeFailed⟩], line := .unknown,
      err := u.err ||| 0x0080#16, log := u.log ++ [⟨u.now, .eWrite, .final⟩], ph := .x3Release }) ∧
    (s.atPhase .x3Release → u.cur.answersOk = true → ∃ l, step s = .next { u with
      trace := u.trace ++ [⟨u.now, .tClose, .ok⟩], line := l, devOpen := removeIndex u.devIndex u.devOpen,
      handle := .none, ph := .x4Halt }) ∧
    (s.atPhase .x3Release → u.cur.answersOk = false → ∃ l, step s = .next { u with
      trace := u.trace ++ [⟨u.now, .tClose, .err .closeFailed⟩], line := l, devOpen := removeIndex u.devIndex u.devOpen,
      err := u.err ||| 0x0800#16, log := u.log ++ [⟨u.now, .eClose, .nothing⟩], handle := .none, ph := .x4Halt })

/-! ## Rules about every step -/

/-- R28, R32: `TARGET_MS` is computed at reset, is 25 for the default `FREQ`, and neither it nor a latch nor a parameter is ever written again, so that
the identity of R2 stays the same. -/
def Obligations.LatchesAndTargetNeverChange : Prop :=
  (∀ (c : Latches) (p : Params) (now : Nat) (dev : List Word) (s : State), State.create c p now dev = .next s →
    s.targetMs = targetMsOf c.freq.toNat ∧ 1 ≤ s.targetMs) ∧
  State.reset.targetMs = 25 ∧
  (∀ s t : State, step s = .next t → t.targetMs = s.targetMs ∧ t.devIndex = s.devIndex ∧ t.freq = s.freq ∧
    t.rdTimeoutMs = s.rdTimeoutMs ∧ t.wrTimeoutMs = s.wrTimeoutMs ∧ t.lineCfg = s.lineCfg ∧ t.params = s.params ∧
    t.identity = s.identity)

/-- R24, R23: every move of (`LS`, `PH`) is a row of the successor table (with a final preamble, of the table log entry 25 gives), made by `SEQ`; a
phase may keep its place only where it waits for the clock or has halted, or where another agent moves. -/
def Obligations.PositionFollowsTheTable : Prop :=
  ∀ s t : State, s.placed → step s = .next t →
    t.placed ∧ (t.ls = s.ls ∨ s.ls.arrow t.ls = true) ∧
    (t.ph ∈ s.ph.successors s.params.finalPreamble ∨ t.ph = s.ph ∧ (s.ph.waits = true ∨ s.ph = .x4Halt ∨ ¬s.seqTurn))

/-- R31, R45, R46, R222, R40: nothing recorded is ever removed. `LOG` and `TRACE` only grow, each new event is stamped with the time the step ends at,
a new bit of `ERR` is that of an event logged in the same step, and `NOW` never decreases. -/
def Obligations.RecordsOnlyGrow : Prop :=
  ∀ s t : State, step s = .next t →
    s.now ≤ t.now ∧
    (∃ l, t.log = s.log ++ l ∧ (∀ e ∈ l, e.t = t.now) ∧ t.err = l.foldl (fun r e => r ||| e.code.mask) s.err) ∧
    (∃ l, t.trace = s.trace ++ l ∧ l.length ≤ 1 ∧ ∀ e ∈ l, e.t = t.now)

/-- R105, R29: the complete table of issues (with a final preamble also its break primitives, log entry 25), and that every primitive but `T_OPEN`
and `T_ENUMERATE` is issued only while `HANDLE = Open`. -/
def Obligations.PrimitivesIssuedByTheTable : Prop :=
  ∀ (s t : State) (e : TraceEntry), step s = .next t → t.trace = s.trace ++ [e] →
    s.seqTurn ∧ s.mayIssue e.op ∧ (s.Inv → (∀ i, e.op ≠ .tOpen i) → e.op ≠ .tEnumerate → s.handle = .opened)

/-- R49: what the other agents can reach. None of them writes anything `SEQ` owns, and `SEQ` writes neither endpoint flag. -/
def Obligations.OtherAgentsKeepOut : Prop :=
  ∀ s t : State, step s = .next t →
    (¬s.seqTurn → t = { s with
      cq := t.cq, rq := t.rq, cqTxOpen := t.cqTxOpen, rqRxOpen := t.rqRxOpen, now := t.now,
      devOpen := t.devOpen, sched := t.sched, moveCount := t.moveCount }) ∧
    (s.seqTurn → t.cqTxOpen = s.cqTxOpen ∧ t.rqRxOpen = s.rqRxOpen) ∧
    (s.cqTxOpen = false → t.cqTxOpen = false) ∧ (s.rqRxOpen = false → t.rqRxOpen = false)

/-- R33, R59, R60, R193: `CQ` changes only by an append of a decoded word at its tail, or by the pop of its head at `S1_DRAIN` of `Running`. -/
def Obligations.CommandQueueIsFifo : Prop :=
  ∀ s t : State, step s = .next t →
    t.cq = s.cq ∨
    (∃ w i, s.nextMove = .send w ∧ s.params.format.decode w = .ok i ∧ s.cqTxOpen = true ∧ t.cq = s.cq ++ [i]) ∨
    (∃ c, s.seqTurn ∧ s.atPhase .s1Drain ∧ s.cq = c :: t.cq)

/-- R35, R64, R192: `RQ` changes only by the append of one response while `SEQ` executes a `ListDevices` with the receiver open, or by the host's
removal of its head. -/
def Obligations.ResponseQueueIsFifo : Prop :=
  ∀ s t : State, step s = .next t →
    t.rq = s.rq ∨
    (∃ l, s.seqTurn ∧ s.atPhase .s1Drain ∧ s.cq.head? = some .listDevices ∧ s.rqRxOpen = true ∧ t.rq = s.rq ++ [.deviceList l]) ∨
    (∃ m, s.nextMove = .receive ∧ s.rqRxOpen = true ∧ s.rq = m :: t.rq)

/-- R55, R22: the Frame Buffer changes only in a drain step that executes `SetChannel` or `ClearFrame`, and in `X1_CLEAR`, so the frame of step 7 is
the buffer as the cycle's drain left it. -/
def Obligations.BufferWrittenOnlyByDrainAndClear : Prop :=
  ∀ s t : State, step s = .next t → t.fb ≠ s.fb →
    s.seqTurn ∧ (s.atPhase .x1Clear ∨
      s.atPhase .s1Drain ∧ (s.cq.head? = some .clearFrame ∨ ∃ c v, s.cq.head? = some (.setChannel c v) ∧ 1 ≤ c ∧ c ≤ 512))

/-- R30, R31, R44, R222: no rule reads `ERR`, `LOG`, `BRK`, `LINE` or `TRACE`. A step from a state that differs in them alone ends in a state that differs
in them alone. -/
def Obligations.DiagnosticsInfluenceNothing : Prop :=
  ∀ (s t : State) (err : BitVec 16) (log : List LogEntry) (brk : Bool) (line : Line) (trace : List TraceEntry),
    step s = .next t →
    ∃ (err' : BitVec 16) (log' : List LogEntry) (brk' : Bool) (line' : Line) (trace' : List TraceEntry),
      step { s with err := err, log := log, brk := brk, line := line, trace := trace } =
        .next { t with err := err', log := log', brk := brk', line := line', trace := trace' }

/-! ## Invariants -/

/-- The invariant holds at reset, for every configuration reset accepts and whatever `T0` and `CYCLE_START` hold before they are written (R48). -/
def Obligations.ResetEstablishesTheInvariant : Prop :=
  State.reset.Inv ∧
  ∀ (c : Latches) (p : Params) (now : Nat) (dev : List Word) (sched : List Move) (draws : List Draw)
    (t0 cycleStart : Nat) (s : State),
    State.create c p now dev = .next s → State.Inv { s with sched := sched, draws := draws, t0 := t0, cycleStart := cycleStart }

/-- From every state that meets the invariant the step answers a next state, and that state meets it, whatever the environment does. Three points
of it are the model's and no rule's: that a step of `SEQ` inside a sleep or a yield lets time pass (log entry 2) and one at `X4_HALT` too (log
entry 6), where R12 gives `SEQ` no step; and that no other user of the transport takes out the index of the handle this block holds, on which the
clause `ownsDevice` rests (log entry 16: DEDUCED, unsafe). The clauses on a final preamble rest on log entry 25. -/
def Obligations.StepKeepsTheInvariant : Prop :=
  ∀ s : State, s.Inv → (∃ t, step s = .next t) ∧ ∀ t, step s = .next t → t.Inv

/-- R280: no command writes `FB[0]` to anything but 0, and every frame handed to the transport has 513 bytes and the start code 0. -/
def Obligations.EveryFrameHasStartCodeZero : Prop :=
  (∀ (i : Instr) (s t : State), exec i s = .next t → t.fb.read 0 = s.fb.read 0 ∨ t.fb.read 0 = 0#8) ∧
  ∀ s t : State, s.Inv → step s = .next t →
    (∀ e ∈ s.trace, ∀ b, e.op = .tWrite b → b.length = 513 ∧ b.head? = some 0#8) →
    (∀ e ∈ t.trace, ∀ b, e.op = .tWrite b → b.length = 513 ∧ b.head? = some 0#8)

/-- R169: under `Adequate` the deassert comes at least the BREAK hold after the assert and the write at least the MAB hold after the deassert, in
every cycle and in a final preamble. It rests on the sleep that never ends early (log entry 18: PRESUMED, G1). -/
def Obligations.PreambleKeepsItsSpacing : Prop :=
  ∀ s t : State, s.Inv → s.preambleSpaced → step s = .next t → t.preambleSpaced

/-! ## Runs -/

/-- R25: once determined, `TC` never changes again. -/
def Obligations.TimingClassIsImmutable : Prop :=
  ∀ (s t : State) (k : Nat), s.Inv → s.tc ≠ .unknown → runs k s = .next t → t.tc = s.tc

/-- R42: a sleep never ends early. Whatever the other agents do, the sequencer leaves a sleeping phase no earlier than the sleep's length after it
came to it. The spec takes this from general knowledge (G1) and the model follows it: log entry 18 (PRESUMED, unsafe). The last two clauses are
the holds of a final preamble (log entry 25). -/
def Obligations.SleepNeverEndsEarly : Prop :=
  ∀ (s t : State) (k : Nat), s.placed → s.wake = none → runs k s = .next t → t.ph ≠ s.ph →
    (s.ph = .i2Settle → s.now + s.params.settleUs ≤ t.now) ∧
    (s.ph = .s4BreakHold → s.tc = .adequate → s.now + s.params.breakHoldUs ≤ t.now) ∧
    (s.ph = .s6MabHold → s.tc = .adequate → s.now + s.params.mabHoldUs ≤ t.now) ∧
    (s.ph = .xpBreakHold → s.tc = .adequate → s.now + s.params.breakHoldUs ≤ t.now) ∧
    (s.ph = .xpMabHold → s.tc = .adequate → s.now + s.params.mabHoldUs ≤ t.now)

/-- R136: the frame cycle start timestamps differ by no less than the target duration, under every classification and in every run. -/
def Obligations.CyclesArePaced : Prop :=
  ∀ (s t : State) (k : Nat), s.atPhase .s3Break → s.cycleStart ≤ s.now → runs k s = .next t →
    t.cycleStart = s.cycleStart ∨ s.cycleStart + s.targetMs * 1000 ≤ t.cycleStart

/-- R59, R160, R61: a drain executes the commands in the order sent, one a step, each completely before the next, and the last write to a slot
wins. And R271, U24: while the host sends one command for each that `SEQ` executes, the drain does not end: however long the flood,
`SEQ` is still in `S1_DRAIN`, as many commands wait as before, and neither a break nor a frame was issued. -/
def Obligations.DrainExecutesInOrder : Prop :=
  (∀ (s : State) (cmds rest : List Instr), s.atPhase .s1Drain → s.seqTurns cmds.length → s.fb.wf = true → s.cq = cmds ++ rest → .stop ∉ cmds →
    ∃ t, runs cmds.length s = .next t ∧ t.atPhase .s1Drain ∧ t.cq = rest ∧
      (∀ k, 1 ≤ k → k ≤ 512 → t.fb.read k = cmds.foldl (fun (b : Byte) c =>
        match c with
        | .setChannel j v => if j = k then v else b
        | .clearFrame => 0#8
        | _ => b) (s.fb.read k))) ∧
  (∀ (s : State) (w n : Nat) (i : Instr), s.atPhase .s1Drain → s.cqTxOpen = true → s.params.format.decode w = .ok i → i ≠ .stop →
    s.cq ≠ [] → .stop ∉ s.cq → s.sched.take (2 * n) = (List.replicate n [.send w, .seq]).flatten →
    ∃ t l, runs (2 * n) s = .next t ∧ t.atPhase .s1Drain ∧ t.cq.length = s.cq.length ∧ t.trace = s.trace ++ l ∧
      ∀ e ∈ l, e.op = .tEnumerate ∨ e.op = .tConfigure s.lineCfg s.rdTimeoutMs s.wrTimeoutMs)

/-- R169, R171, R61: one whole preamble. From `S2_STAMP`, where the primitives succeed and each step lasts as long as its hold, six steps bring the
assert, the deassert and the frame, in this order and with nothing between them. -/
def Obligations.CycleEmitsPreambleThenFrame : Prop :=
  ∀ s : State, s.atPhase .s2Stamp → s.seqTurns 6 → s.wake = none →
    (∀ d ∈ s.draws.take 6, d.answersOk = true ∧ s.params.breakHoldUs ≤ d.elapsed ∧ s.params.mabHoldUs ≤ d.elapsed) → 6 ≤ s.draws.length →
    ∃ t t3 t5 t7, runs 6 s = .next t ∧ t.atPhase .s8Pace ∧ t.fb = s.fb ∧ t3 ≤ t5 ∧ t5 ≤ t7 ∧
      t.trace = s.trace ++ [⟨t3, .tSetBreak, .ok⟩, ⟨t5, .tClearBreak, .ok⟩, ⟨t7, .tWrite s.fb.frame, .ok⟩]

/-- R177, R178, R231: the shutdown after a `Stop` takes four steps whatever the transport answers: one write of the all-zero frame, one release,
no break primitive; then the block has halted with the handle released and the buffer clear. In a build with `FINAL_PREAMBLE = true` (log entry 25: the
model's choice), where the primitives succeed and each step lasts as long as its hold, it takes eight, and the final frame has its preamble. -/
def Obligations.ShutdownCompletes : Prop :=
  ∀ s : State, s.atPhase .d1Flush →
    (s.params.finalPreamble = false → s.seqTurns 4 →
      ∃ t e f, runs 4 s = .next t ∧ t.halted ∧ t.handle = .none ∧ s.devIndex ∉ t.devOpen ∧ (∀ k, t.fb.read k = 0#8) ∧
        t.trace = s.trace ++ [e, f] ∧ e.op = .tWrite zeroFrame ∧ f.op = .tClose ∧ t.cq = s.cq ∧ t.rq = s.rq) ∧
    (s.params.finalPreamble = true → s.seqTurns 8 → s.wake = none → 8 ≤ s.draws.length →
      (∀ d ∈ s.draws.take 8, d.answersOk = true ∧ s.params.breakHoldUs ≤ d.elapsed ∧ s.params.mabHoldUs ≤ d.elapsed) →
      ∃ t a b e f, runs 8 s = .next t ∧ t.halted ∧ t.handle = .none ∧ s.devIndex ∉ t.devOpen ∧ (∀ k, t.fb.read k = 0#8) ∧
        t.trace = s.trace ++ [a, b, e, f] ∧ a.op = .tSetBreak ∧ b.op = .tClearBreak ∧ e.op = .tWrite zeroFrame ∧ f.op = .tClose ∧
        t.cq = s.cq ∧ t.rq = s.rq)

/-- R178: the `Stop` guarantee. In every run after a `Stop`, whatever every agent does, the trace gains at most the final all-zero frame and then the
release; before them, in a build with `FINAL_PREAMBLE = true` alone, at most the two break primitives of the final preamble (log entry 25). -/
def Obligations.NothingButZeroFrameAfterStop : Prop :=
  ∀ (s t : State) (k : Nat), s.atPhase .d1Flush → runs k s = .next t →
    ∃ p l, t.trace = s.trace ++ p ++ l ∧ (s.params.finalPreamble = false → p = []) ∧ p.length ≤ 2 ∧
      (∀ e ∈ p, e.op = .tSetBreak ∨ e.op = .tClearBreak) ∧
      (l = [] ∨ (∃ e, e.op = .tWrite zeroFrame ∧ l = [e]) ∨ ∃ e f, e.op = .tWrite zeroFrame ∧ f.op = .tClose ∧ l = [e, f])

/-- R176: halting is final. In every run from `X4_HALT` only the host, the clock, the transport's other users and the records of the environment
change. -/
def Obligations.HaltIsFinal : Prop :=
  ∀ (s t : State) (k : Nat), s.halted → runs k s = .next t →
    t = { s with
      cq := t.cq, rq := t.rq, cqTxOpen := t.cqTxOpen, rqRxOpen := t.rqRxOpen, now := t.now, devOpen := t.devOpen,
      sched := t.sched, moveCount := t.moveCount, draws := t.draws, drawCount := t.drawCount, cur := t.cur } ∧ s.cq <+: t.cq ∧ t.rq <:+ s.rq

/-- R177: in a halted state `TRACE` is one failed open and nothing else, or it ends with exactly one all-zero write and then the only release. -/
def Obligations.HaltedTraceEndsWithZeroFrameAndRelease : Prop :=
  ∀ s : State, s.Inv → s.halted →
    (∃ e i, s.trace = [e] ∧ e.op = .tOpen i ∧ e.result.isErr = true) ∨
    (∃ l e f, s.trace = l ++ [e, f] ∧ e.op = .tWrite zeroFrame ∧ f.op = .tClose ∧ ∀ g ∈ l, g.op ≠ .tClose)

/-- R171: every frame written in `Running` is directly preceded by a successful deassert, and that by a successful assert. -/
def Obligations.EveryFrameHasAPreamble : Prop :=
  ∀ (s t : State) (e : TraceEntry), s.Inv → s.ph = .s7Write → step s = .next t → t.trace = s.trace ++ [e] →
    ∃ l a b, s.trace = l ++ [a, b] ∧ a.op = .tSetBreak ∧ a.result = .ok ∧ b.op = .tClearBreak ∧ b.result = .ok

/-- R180: the language of `TRACE` in every run of every instance, from its reset on (of a build with a final preamble, the language log entry 25
gives). -/
def Obligations.TraceStaysInTheLanguage : Prop :=
  ∀ (c : Latches) (p : Params) (now : Nat) (dev : List Word) (sched : List Move) (draws : List Draw) (s t : State) (k : Nat),
    State.create c p now dev = .next s → runs k { s with sched := sched, draws := draws } = .next t →
    t.traceShape ∧ traceModes p.finalPreamble t.trace ≠ []
end

