-- ==== Sys2Proof/Laws/Decode.lean ====
section
/-! SUPPORT. The codec's lemmas: the inversion of the decoder at every width, and its instance at the widths the spec takes. -/

namespace Sys2Proof

/-- The operand bits and the tag make the word. -/
theorem CmdFormat.tag_add_operand (f : CmdFormat) (w : Nat) : f.tagField w * 2 ^ f.operandBits + f.operandField w = w := by
  rw [Nat.mul_comm]; exact Nat.div_add_mod w _

/-- A command without operands is decoded from the word of its tag alone (R76). -/
theorem CmdFormat.bare_cases (f : CmdFormat) (i : Instr) (w : Nat) :
    (w = f.tagField w * 2 ^ f.operandBits ∧ f.bare i w = .ok i) ∨ (f.operandField w ≠ 0 ∧ f.bare i w = .error .operandBits) := by
  have := f.tag_add_operand w
  by_cases h : f.operandField w = 0
  · exact .inl ⟨by omega, if_pos h⟩
  · exact .inr ⟨h, if_neg h⟩

/-- With tag 0 the index field is all above `VALUE` (R72). -/
theorem CmdFormat.indexField_of_tag_zero {f : CmdFormat} {w : Nat} (h : f.tagField w = 0) :
    f.indexField w = w / 256 ∧ w / 256 < 2 ^ f.indexBits := by
  have hw : w < 2 ^ f.operandBits := (Nat.div_eq_zero_iff_lt (Nat.two_pow_pos _)).1 h
  have hi : w / 256 < 2 ^ f.indexBits := by
    rw [CmdFormat.operandBits, Nat.pow_add] at hw
    omega
  exact ⟨Nat.mod_eq_of_lt hi, hi⟩

/-- Everything the decoder can do, at every width (R75, R76, R78). -/
theorem CmdFormat.decode_cases (f : CmdFormat) (w : Nat) :
    (2 ^ f.cmdBits ≤ w ∧ f.decode w = .error .tooWide) ∨
    (w < 2 ^ f.cmdBits ∧
      ((f.tagField w = 0 ∧ w / 256 < 2 ^ f.indexBits ∧ f.decode w = .ok (.setChannel (w / 256) (BitVec.ofNat 8 w))) ∨
      (w = 1 * 2 ^ f.operandBits ∧ f.decode w = .ok .stop) ∨ (w = 2 * 2 ^ f.operandBits ∧ f.decode w = .ok .reset) ∨
      (w = 3 * 2 ^ f.operandBits ∧ f.decode w = .ok .clearFrame) ∨ (w = 4 * 2 ^ f.operandBits ∧ f.decode w = .ok .listDevices) ∨
      (1 ≤ f.tagField w ∧ f.tagField w ≤ 4 ∧ f.operandField w ≠ 0 ∧ f.decode w = .error .operandBits) ∨
      (5 ≤ f.tagField w ∧ f.decode w = .error .reservedTag))) := by
  by_cases hw : 2 ^ f.cmdBits ≤ w
  · exact .inl ⟨hw, if_pos hw⟩
  refine .inr ⟨Nat.lt_of_not_le hw, ?_⟩
  simp only [CmdFormat.decode, hw, if_false]
  split <;> rename_i ht
  · obtain ⟨hi, hlt⟩ := indexField_of_tag_zero ht
    exact .inl ⟨ht, hlt, by rw [hi]; rfl⟩
  · obtain ⟨h, e⟩ | ⟨h, e⟩ := f.bare_cases .stop w <;> rw [e]
    · exact .inr (.inl ⟨ht ▸ h, rfl⟩)
    · exact .inr (.inr (.inr (.inr (.inr (.inl ⟨by omega, by omega, h, rfl⟩)))))
  · obtain ⟨h, e⟩ | ⟨h, e⟩ := f.bare_cases .reset w <;> rw [e]
    · exact .inr (.inr (.inl ⟨ht ▸ h, rfl⟩))
    · exact .inr (.inr (.inr (.inr (.inr (.inl ⟨by omega, by omega, h, rfl⟩)))))
  · obtain ⟨h, e⟩ | ⟨h, e⟩ := f.bare_cases .clearFrame w <;> rw [e]
    · exact .inr (.inr (.inr (.inl ⟨ht ▸ h, rfl⟩)))
    · exact .inr (.inr (.inr (.inr (.inr (.inl ⟨by omega, by omega, h, rfl⟩)))))
  · obtain ⟨h, e⟩ | ⟨h, e⟩ := f.bare_cases .listDevices w <;> rw [e]
    · exact .inr (.inr (.inr (.inr (.inl ⟨ht ▸ h, rfl⟩))))
    · exact .inr (.inr (.inr (.inr (.inr (.inl ⟨by omega, by omega, h, rfl⟩)))))
  · rename_i h0 h1 h2 h3
    refine .inr (.inr (.inr (.inr (.inr (.inr ⟨?_, rfl⟩)))))
    by_contra hc
    generalize f.tagField w = n at *
    interval_cases n <;> simp_all

/-- A decoded command is well formed: its index came out of its field (R73). -/
theorem CmdFormat.decode_wf {f : CmdFormat} {w : Nat} {i : Instr} (h : f.decode w = .ok i) : i.wfIn f = true := by
  obtain ⟨-, e⟩ | ⟨-, ⟨-, hi, e⟩ | ⟨-, e⟩ | ⟨-, e⟩ | ⟨-, e⟩ | ⟨-, e⟩ | ⟨-, -, -, e⟩ | ⟨-, e⟩⟩ := f.decode_cases w <;> rw [e] at h <;> cases h
  · simpa [Instr.wfIn] using hi
  all_goals rfl

/-- At the widths the spec takes there are 24 operand bits (R72). -/
theorem format_pow_operandBits : 2 ^ Config.format.operandBits = 16777216 := by decide

/-- At the widths the spec takes a word has 32 bits (R71). -/
theorem format_pow_cmdBits : 2 ^ Config.format.cmdBits = 4294967296 := by decide

/-- At the widths the spec takes an index has 16 bits (R72). -/
theorem format_pow_indexBits : 2 ^ Config.format.indexBits = 65536 := by decide

/-- `TAG` as a number (R72). -/
theorem format_tagField (w : Nat) : Config.format.tagField w = w / 16777216 := by
  rw [CmdFormat.tagField, format_pow_operandBits]

/-- The operand bits as a number (R76). -/
theorem format_operandField (w : Nat) : Config.format.operandField w = w % 16777216 := by
  rw [CmdFormat.operandField, format_pow_operandBits]

/-- Everything the decoder of 32-bit words can do (R75, R76, R78). -/
theorem decode_cases (w : Word) :
    (w.toNat / 16777216 = 0 ∧ decode w = .ok (.setChannel (w.toNat / 256) (BitVec.ofNat 8 w.toNat))) ∨
    (w = 0x01000000#32 ∧ decode w = .ok .stop) ∨ (w = 0x02000000#32 ∧ decode w = .ok .reset) ∨
    (w = 0x03000000#32 ∧ decode w = .ok .clearFrame) ∨ (w = 0x04000000#32 ∧ decode w = .ok .listDevices) ∨
    (1 ≤ w.toNat / 16777216 ∧ w.toNat / 16777216 ≤ 4 ∧ w.toNat % 16777216 ≠ 0 ∧ decode w = .error .operandBits) ∨
    (5 ≤ w.toNat / 16777216 ∧ decode w = .error .reservedTag) := by
  have hlt := w.isLt
  have hw : ∀ n < 256, w.toNat = n * 16777216 → w = BitVec.ofNat 32 (n * 16777216) := fun n hn h =>
    BitVec.eq_of_toNat_eq (by rw [h, BitVec.toNat_ofNat]; omega)
  have := Config.format.decode_cases w.toNat
  rw [format_tagField, format_operandField, format_pow_operandBits, format_pow_cmdBits] at this
  obtain ⟨h, -⟩ | ⟨-, ⟨ht, -, e⟩ | ⟨h, e⟩ | ⟨h, e⟩ | ⟨h, e⟩ | ⟨h, e⟩ | ⟨h1, h2, h3, e⟩ | ⟨h1, e⟩⟩ := this
  · omega
  · exact .inl ⟨ht, e⟩
  · exact .inr (.inl ⟨hw 1 (by omega) h, e⟩)
  · exact .inr (.inr (.inl ⟨hw 2 (by omega) h, e⟩))
  · exact .inr (.inr (.inr (.inl ⟨hw 3 (by omega) h, e⟩)))
  · exact .inr (.inr (.inr (.inr (.inl ⟨hw 4 (by omega) h, e⟩))))
  · exact .inr (.inr (.inr (.inr (.inr (.inl ⟨h1, h2, h3, e⟩)))))
  · exact .inr (.inr (.inr (.inr (.inr (.inr ⟨h1, e⟩)))))

/-- A word in format CW as a number, at the widths the spec takes: its fields fit, so no bit is lost (R72). -/
theorem format_word_toNat {tag index : Nat} (value : Byte) (ht : tag < 256) (hi : index < 65536) :
    (BitVec.ofNat 32 (Config.format.word tag index value)).toNat = tag * 16777216 + index * 256 + value.toNat := by
  have := value.isLt
  rw [CmdFormat.word, format_pow_operandBits, BitVec.toNat_ofNat]
  omega

end Sys2Proof
end

