-- ==== Sys2Proof/Laws/Memory.lean ====
section
/-! SUPPORT. The laws of the Frame Buffer: read after write, and that every operation keeps the canonical form. -/

namespace Sys2Proof.Machine

/-- The canonical form from a lower slot up. -/
theorem Memory.wfFrom_mono {m : Memory} {lo lo' : Nat} (h : lo' ≤ lo) (hm : m.wfFrom lo = true) : m.wfFrom lo' = true := by
  cases m with
  | nil => rfl
  | cons c m =>
    simp only [Memory.wfFrom, Bool.and_eq_true, decide_eq_true_eq] at *
    exact ⟨⟨⟨h.trans hm.1.1.1, hm.1.1.2⟩, hm.1.2⟩, hm.2⟩

/-- A canonical buffer has no cell below its lower bound. -/
theorem Memory.read_below {m : Memory} {lo k : Nat} (hm : m.wfFrom lo = true) (hk : k < lo) : m.read k = Memory.blank := by
  induction m generalizing lo with
  | nil => rfl
  | cons c m ih =>
    simp only [Memory.wfFrom, Bool.and_eq_true, decide_eq_true_eq] at hm
    have : k ≠ c.1 := by omega
    simpa [Memory.read, this] using ih hm.2 (by omega)

/-- A canonical buffer reads blank outside the slot index space (R57). -/
theorem Memory.read_outside {m : Memory} {lo k : Nat} (hm : m.wfFrom lo = true) (hk : Config.nslots ≤ k) :
    m.read k = Memory.blank := by
  induction m generalizing lo with
  | nil => rfl
  | cons c m ih =>
    simp only [Memory.wfFrom, Bool.and_eq_true, decide_eq_true_eq] at hm
    have : k ≠ c.1 := by omega
    simpa [Memory.read, this] using ih hm.2

/-- A write leaves every other slot alone. -/
theorem Memory.read_write_other (m : Memory) {a k : Nat} (v : Byte) (h : k ≠ a) : (m.write a v).read k = m.read k := by
  induction m with
  | nil => by_cases hv : v = Memory.blank <;> simp [Memory.write, Memory.read, hv, h]
  | cons c m ih =>
    obtain ⟨b, w⟩ := c
    simp only [Memory.write]
    split
    · split <;> simp [Memory.read, h]
    · split
      · rename_i hb; subst hb
        split <;> simp [Memory.read, h]
      · simp [Memory.read, ih]

/-- A read after a write to the same slot of a canonical buffer gives the value written. -/
theorem Memory.read_write_same {m : Memory} {lo : Nat} (a : Nat) (v : Byte) (hm : m.wfFrom lo = true) :
    (m.write a v).read a = v := by
  induction m generalizing lo with
  | nil => by_cases hv : v = Memory.blank <;> simp [Memory.write, Memory.read, hv]
  | cons c m ih =>
    obtain ⟨b, w⟩ := c
    simp only [Memory.wfFrom, Bool.and_eq_true, decide_eq_true_eq] at hm
    simp only [Memory.write]
    split
    · rename_i hab
      split
      · rename_i hv
        have : a ≠ b := by omega
        rw [hv]
        simpa [Memory.read, this] using Memory.read_below hm.2 (by omega)
      · simp [Memory.read]
    · split
      · rename_i hb; subst hb
        split
        · rename_i hv; rw [hv]; exact Memory.read_below hm.2 (by omega)
        · simp [Memory.read]
      · rename_i _ hb
        simpa [Memory.read, hb] using ih hm.2

/-- A write inside the slot index space keeps the canonical form. -/
theorem Memory.wfFrom_write {m : Memory} {lo a : Nat} (v : Byte) (hm : m.wfFrom lo = true) (hlo : lo ≤ a)
    (ha : a < Config.nslots) : (m.write a v).wfFrom lo = true := by
  induction m generalizing lo with
  | nil => by_cases hv : v = Memory.blank <;> simp [Memory.write, Memory.wfFrom, hv, hlo, ha]
  | cons c m ih =>
    obtain ⟨b, w⟩ := c
    have hm' := hm
    simp only [Memory.wfFrom, Bool.and_eq_true, decide_eq_true_eq] at hm
    obtain ⟨⟨⟨h1, h2⟩, h3⟩, h4⟩ := hm
    simp only [Memory.write]
    split
    · rename_i hab
      split
      · exact hm'
      · rename_i hv
        simp only [Memory.wfFrom, Bool.and_eq_true, decide_eq_true_eq]
        exact ⟨⟨⟨hlo, ha⟩, hv⟩, ⟨⟨by omega, h2⟩, h3⟩, h4⟩
    · split
      · rename_i hb; subst hb
        split
        · exact Memory.wfFrom_mono (by omega) h4
        · rename_i hv
          simp only [Memory.wfFrom, Bool.and_eq_true, decide_eq_true_eq]
          exact ⟨⟨⟨hlo, ha⟩, hv⟩, h4⟩
      · rename_i hb1 hb2
        simp only [Memory.wfFrom, Bool.and_eq_true, decide_eq_true_eq]
        exact ⟨⟨⟨h1, h2⟩, h3⟩, ih h4 (by omega)⟩

/-- `FB[a] <- v` keeps the canonical form. -/
theorem Memory.wf_write {m : Memory} {a : Nat} (v : Byte) (hm : m.wf = true) (ha : a < Config.nslots) :
    (m.write a v).wf = true :=
  Memory.wfFrom_write v hm (Nat.zero_le a) ha

/-- Writing consecutive slots keeps the canonical form. -/
theorem Memory.wf_putSlots {m : Memory} {a : Nat} {vs : List Byte} (hm : m.wf = true) (ha : a + vs.length ≤ Config.nslots) :
    (m.putSlots a vs).wf = true := by
  induction vs generalizing m a with
  | nil => exact hm
  | cons v vs ih =>
    simp only [List.length_cons] at ha
    exact ih (Memory.wf_write v hm (by omega)) (by omega)

/-- `MemWrite` keeps the canonical form where it is defined. -/
theorem Memory.wf_memWrite {m m' : Memory} {a : Nat} {vs : List Byte} (hm : m.wf = true) (h : m.memWrite a vs = some m') :
    m'.wf = true := by
  simp only [Memory.memWrite, Option.ite_none_right_eq_some, Option.some.injEq] at h
  exact h.2 ▸ Memory.wf_putSlots hm h.1

/-- A valid channel is a slot from 1 to 512 (R111). -/
theorem validChannel_iff (c : Nat) : validChannel c = true ↔ 1 ≤ c ∧ c ≤ 512 := by
  rw [validChannel, Bool.and_eq_true, decide_eq_true_eq, decide_eq_true_eq]; rfl

/-- `FB_SET` keeps the canonical form. -/
theorem fbSet_wf {m : Memory} (c : Nat) (v : Byte) (hm : m.wf = true) : (fbSet m c v).2.wf = true := by
  unfold fbSet
  split
  · rename_i h
    exact Memory.wf_write v hm (by rw [validChannel_iff] at h; simp only [Config.nslots]; omega)
  · exact hm

/-- `FB_CLEAR` gives a canonical buffer. -/
theorem fbClear_wf (m : Memory) : (fbClear m).wf = true := rfl

/-- `FB_SYNC` keeps the canonical form. -/
theorem fbSync_wf {m : Memory} (raw : List Byte) (hm : m.wf = true) : (fbSync m raw).wf = true :=
  Memory.wf_putSlots hm (by simp only [List.length_take, Config.nslots]; omega)

/-- The number of slots read. -/
@[simp] theorem Memory.slots_length (m : Memory) (a n : Nat) : (m.slots a n).length = n := by simp [Memory.slots]

/-- The `k`-th of the slots read. -/
theorem Memory.slots_getElem (m : Memory) (a n k : Nat) (h : k < (m.slots a n).length) :
    (m.slots a n)[k] = m.read (a + k) := by simp [Memory.slots]

/-- The frame of the empty buffer is the all-zero frame. -/
theorem Memory.frame_nil : Memory.frame [] = zeroFrame := by
  simp [Memory.frame, Memory.slots, Memory.read, zeroFrame, Memory.blank, List.map_const']

end Sys2Proof.Machine
end

