-- ==== Sys2Proof/Laws/State.lean ====
section
/-! SUPPORT. One lemma per field per named update of State, each true by rfl, so that no later proof unfolds a record update. -/

namespace Sys2Proof.Machine

variable (s : State)

/-! ## State.goto -/

@[simp] theorem State.goto_fb (l : LoopState) (p : Phase) : (s.goto l p).fb = s.fb := rfl
@[simp] theorem State.goto_ls (l : LoopState) (p : Phase) : (s.goto l p).ls = l := rfl
@[simp] theorem State.goto_ph (l : LoopState) (p : Phase) : (s.goto l p).ph = p := rfl
@[simp] theorem State.goto_tc (l : LoopState) (p : Phase) : (s.goto l p).tc = s.tc := rfl
@[simp] theorem State.goto_t0 (l : LoopState) (p : Phase) : (s.goto l p).t0 = s.t0 := rfl
@[simp] theorem State.goto_cycleStart (l : LoopState) (p : Phase) : (s.goto l p).cycleStart = s.cycleStart := rfl
@[simp] theorem State.goto_targetMs (l : LoopState) (p : Phase) : (s.goto l p).targetMs = s.targetMs := rfl
@[simp] theorem State.goto_handle (l : LoopState) (p : Phase) : (s.goto l p).handle = s.handle := rfl
@[simp] theorem State.goto_brk (l : LoopState) (p : Phase) : (s.goto l p).brk = s.brk := rfl
@[simp] theorem State.goto_err (l : LoopState) (p : Phase) : (s.goto l p).err = s.err := rfl
@[simp] theorem State.goto_devIndex (l : LoopState) (p : Phase) : (s.goto l p).devIndex = s.devIndex := rfl
@[simp] theorem State.goto_freq (l : LoopState) (p : Phase) : (s.goto l p).freq = s.freq := rfl
@[simp] theorem State.goto_rdTimeoutMs (l : LoopState) (p : Phase) : (s.goto l p).rdTimeoutMs = s.rdTimeoutMs := rfl
@[simp] theorem State.goto_wrTimeoutMs (l : LoopState) (p : Phase) : (s.goto l p).wrTimeoutMs = s.wrTimeoutMs := rfl
@[simp] theorem State.goto_lineCfg (l : LoopState) (p : Phase) : (s.goto l p).lineCfg = s.lineCfg := rfl
@[simp] theorem State.goto_cq (l : LoopState) (p : Phase) : (s.goto l p).cq = s.cq := rfl
@[simp] theorem State.goto_cqTxOpen (l : LoopState) (p : Phase) : (s.goto l p).cqTxOpen = s.cqTxOpen := rfl
@[simp] theorem State.goto_rq (l : LoopState) (p : Phase) : (s.goto l p).rq = s.rq := rfl
@[simp] theorem State.goto_rqRxOpen (l : LoopState) (p : Phase) : (s.goto l p).rqRxOpen = s.rqRxOpen := rfl
@[simp] theorem State.goto_now (l : LoopState) (p : Phase) : (s.goto l p).now = s.now := rfl
@[simp] theorem State.goto_devOpen (l : LoopState) (p : Phase) : (s.goto l p).devOpen = s.devOpen := rfl
@[simp] theorem State.goto_line (l : LoopState) (p : Phase) : (s.goto l p).line = s.line := rfl
@[simp] theorem State.goto_trace (l : LoopState) (p : Phase) : (s.goto l p).trace = s.trace := rfl
@[simp] theorem State.goto_log (l : LoopState) (p : Phase) : (s.goto l p).log = s.log := rfl
@[simp] theorem State.goto_wake (l : LoopState) (p : Phase) : (s.goto l p).wake = s.wake := rfl
@[simp] theorem State.goto_params (l : LoopState) (p : Phase) : (s.goto l p).params = s.params := rfl
@[simp] theorem State.goto_sched (l : LoopState) (p : Phase) : (s.goto l p).sched = s.sched := rfl
@[simp] theorem State.goto_moveCount (l : LoopState) (p : Phase) : (s.goto l p).moveCount = s.moveCount := rfl
@[simp] theorem State.goto_draws (l : LoopState) (p : Phase) : (s.goto l p).draws = s.draws := rfl
@[simp] theorem State.goto_drawCount (l : LoopState) (p : Phase) : (s.goto l p).drawCount = s.drawCount := rfl
@[simp] theorem State.goto_cur (l : LoopState) (p : Phase) : (s.goto l p).cur = s.cur := rfl

/-! ## State.raise -/

@[simp] theorem State.raise_fb (e : ErrCode) (info : ErrInfo) : (s.raise e info).fb = s.fb := rfl
@[simp] theorem State.raise_ls (e : ErrCode) (info : ErrInfo) : (s.raise e info).ls = s.ls := rfl
@[simp] theorem State.raise_ph (e : ErrCode) (info : ErrInfo) : (s.raise e info).ph = s.ph := rfl
@[simp] theorem State.raise_tc (e : ErrCode) (info : ErrInfo) : (s.raise e info).tc = s.tc := rfl
@[simp] theorem State.raise_t0 (e : ErrCode) (info : ErrInfo) : (s.raise e info).t0 = s.t0 := rfl
@[simp] theorem State.raise_cycleStart (e : ErrCode) (info : ErrInfo) : (s.raise e info).cycleStart = s.cycleStart := rfl
@[simp] theorem State.raise_targetMs (e : ErrCode) (info : ErrInfo) : (s.raise e info).targetMs = s.targetMs := rfl
@[simp] theorem State.raise_handle (e : ErrCode) (info : ErrInfo) : (s.raise e info).handle = s.handle := rfl
@[simp] theorem State.raise_brk (e : ErrCode) (info : ErrInfo) : (s.raise e info).brk = s.brk := rfl
@[simp] theorem State.raise_err (e : ErrCode) (info : ErrInfo) : (s.raise e info).err = errSet s.err e := rfl
@[simp] theorem State.raise_devIndex (e : ErrCode) (info : ErrInfo) : (s.raise e info).devIndex = s.devIndex := rfl
@[simp] theorem State.raise_freq (e : ErrCode) (info : ErrInfo) : (s.raise e info).freq = s.freq := rfl
@[simp] theorem State.raise_rdTimeoutMs (e : ErrCode) (info : ErrInfo) : (s.raise e info).rdTimeoutMs = s.rdTimeoutMs := rfl
@[simp] theorem State.raise_wrTimeoutMs (e : ErrCode) (info : ErrInfo) : (s.raise e info).wrTimeoutMs = s.wrTimeoutMs := rfl
@[simp] theorem State.raise_lineCfg (e : ErrCode) (info : ErrInfo) : (s.raise e info).lineCfg = s.lineCfg := rfl
@[simp] theorem State.raise_cq (e : ErrCode) (info : ErrInfo) : (s.raise e info).cq = s.cq := rfl
@[simp] theorem State.raise_cqTxOpen (e : ErrCode) (info : ErrInfo) : (s.raise e info).cqTxOpen = s.cqTxOpen := rfl
@[simp] theorem State.raise_rq (e : ErrCode) (info : ErrInfo) : (s.raise e info).rq = s.rq := rfl
@[simp] theorem State.raise_rqRxOpen (e : ErrCode) (info : ErrInfo) : (s.raise e info).rqRxOpen = s.rqRxOpen := rfl
@[simp] theorem State.raise_now (e : ErrCode) (info : ErrInfo) : (s.raise e info).now = s.now := rfl
@[simp] theorem State.raise_devOpen (e : ErrCode) (info : ErrInfo) : (s.raise e info).devOpen = s.devOpen := rfl
@[simp] theorem State.raise_line (e : ErrCode) (info : ErrInfo) : (s.raise e info).line = s.line := rfl
@[simp] theorem State.raise_trace (e : ErrCode) (info : ErrInfo) : (s.raise e info).trace = s.trace := rfl
@[simp] theorem State.raise_log (e : ErrCode) (info : ErrInfo) : (s.raise e info).log = s.log ++ [⟨s.now, e, info⟩] := rfl
@[simp] theorem State.raise_wake (e : ErrCode) (info : ErrInfo) : (s.raise e info).wake = s.wake := rfl
@[simp] theorem State.raise_params (e : ErrCode) (info : ErrInfo) : (s.raise e info).params = s.params := rfl
@[simp] theorem State.raise_sched (e : ErrCode) (info : ErrInfo) : (s.raise e info).sched = s.sched := rfl
@[simp] theorem State.raise_moveCount (e : ErrCode) (info : ErrInfo) : (s.raise e info).moveCount = s.moveCount := rfl
@[simp] theorem State.raise_draws (e : ErrCode) (info : ErrInfo) : (s.raise e info).draws = s.draws := rfl
@[simp] theorem State.raise_drawCount (e : ErrCode) (info : ErrInfo) : (s.raise e info).drawCount = s.drawCount := rfl
@[simp] theorem State.raise_cur (e : ErrCode) (info : ErrInfo) : (s.raise e info).cur = s.cur := rfl

/-! ## State.skipTo -/

@[simp] theorem State.skipTo_fb (p : Phase) (e : ErrCode) (info : ErrInfo) : (s.skipTo p e info).fb = s.fb := rfl
@[simp] theorem State.skipTo_ls (p : Phase) (e : ErrCode) (info : ErrInfo) : (s.skipTo p e info).ls = s.ls := rfl
@[simp] theorem State.skipTo_ph (p : Phase) (e : ErrCode) (info : ErrInfo) : (s.skipTo p e info).ph = p := rfl
@[simp] theorem State.skipTo_tc (p : Phase) (e : ErrCode) (info : ErrInfo) : (s.skipTo p e info).tc = s.tc := rfl
@[simp] theorem State.skipTo_t0 (p : Phase) (e : ErrCode) (info : ErrInfo) : (s.skipTo p e info).t0 = s.t0 := rfl
@[simp] theorem State.skipTo_cycleStart (p : Phase) (e : ErrCode) (info : ErrInfo) : (s.skipTo p e info).cycleStart = s.cycleStart := rfl
@[simp] theorem State.skipTo_targetMs (p : Phase) (e : ErrCode) (info : ErrInfo) : (s.skipTo p e info).targetMs = s.targetMs := rfl
@[simp] theorem State.skipTo_handle (p : Phase) (e : ErrCode) (info : ErrInfo) : (s.skipTo p e info).handle = s.handle := rfl
@[simp] theorem State.skipTo_brk (p : Phase) (e : ErrCode) (info : ErrInfo) : (s.skipTo p e info).brk = s.brk := rfl
@[simp] theorem State.skipTo_err (p : Phase) (e : ErrCode) (info : ErrInfo) : (s.skipTo p e info).err = errSet s.err e := rfl
@[simp] theorem State.skipTo_devIndex (p : Phase) (e : ErrCode) (info : ErrInfo) : (s.skipTo p e info).devIndex = s.devIndex := rfl
@[simp] theorem State.skipTo_freq (p : Phase) (e : ErrCode) (info : ErrInfo) : (s.skipTo p e info).freq = s.freq := rfl
@[simp] theorem State.skipTo_rdTimeoutMs (p : Phase) (e : ErrCode) (info : ErrInfo) : (s.skipTo p e info).rdTimeoutMs = s.rdTimeoutMs := rfl
@[simp] theorem State.skipTo_wrTimeoutMs (p : Phase) (e : ErrCode) (info : ErrInfo) : (s.skipTo p e info).wrTimeoutMs = s.wrTimeoutMs := rfl
@[simp] theorem State.skipTo_lineCfg (p : Phase) (e : ErrCode) (info : ErrInfo) : (s.skipTo p e info).lineCfg = s.lineCfg := rfl
@[simp] theorem State.skipTo_cq (p : Phase) (e : ErrCode) (info : ErrInfo) : (s.skipTo p e info).cq = s.cq := rfl
@[simp] theorem State.skipTo_cqTxOpen (p : Phase) (e : ErrCode) (info : ErrInfo) : (s.skipTo p e info).cqTxOpen = s.cqTxOpen := rfl
@[simp] theorem State.skipTo_rq (p : Phase) (e : ErrCode) (info : ErrInfo) : (s.skipTo p e info).rq = s.rq := rfl
@[simp] theorem State.skipTo_rqRxOpen (p : Phase) (e : ErrCode) (info : ErrInfo) : (s.skipTo p e info).rqRxOpen = s.rqRxOpen := rfl
@[simp] theorem State.skipTo_now (p : Phase) (e : ErrCode) (info : ErrInfo) : (s.skipTo p e info).now = s.now := rfl
@[simp] theorem State.skipTo_devOpen (p : Phase) (e : ErrCode) (info : ErrInfo) : (s.skipTo p e info).devOpen = s.devOpen := rfl
@[simp] theorem State.skipTo_line (p : Phase) (e : ErrCode) (info : ErrInfo) : (s.skipTo p e info).line = s.line := rfl
@[simp] theorem State.skipTo_trace (p : Phase) (e : ErrCode) (info : ErrInfo) : (s.skipTo p e info).trace = s.trace := rfl
@[simp] theorem State.skipTo_log (p : Phase) (e : ErrCode) (info : ErrInfo) : (s.skipTo p e info).log = s.log ++ [⟨s.now, e, info⟩] := rfl
@[simp] theorem State.skipTo_wake (p : Phase) (e : ErrCode) (info : ErrInfo) : (s.skipTo p e info).wake = s.wake := rfl
@[simp] theorem State.skipTo_params (p : Phase) (e : ErrCode) (info : ErrInfo) : (s.skipTo p e info).params = s.params := rfl
@[simp] theorem State.skipTo_sched (p : Phase) (e : ErrCode) (info : ErrInfo) : (s.skipTo p e info).sched = s.sched := rfl
@[simp] theorem State.skipTo_moveCount (p : Phase) (e : ErrCode) (info : ErrInfo) : (s.skipTo p e info).moveCount = s.moveCount := rfl
@[simp] theorem State.skipTo_draws (p : Phase) (e : ErrCode) (info : ErrInfo) : (s.skipTo p e info).draws = s.draws := rfl
@[simp] theorem State.skipTo_drawCount (p : Phase) (e : ErrCode) (info : ErrInfo) : (s.skipTo p e info).drawCount = s.drawCount := rfl
@[simp] theorem State.skipTo_cur (p : Phase) (e : ErrCode) (info : ErrInfo) : (s.skipTo p e info).cur = s.cur := rfl

/-! ## State.nextCycle -/

@[simp] theorem State.nextCycle_fb : (s.nextCycle).fb = s.fb := rfl
@[simp] theorem State.nextCycle_ls : (s.nextCycle).ls = s.ls := rfl
@[simp] theorem State.nextCycle_ph : (s.nextCycle).ph = .s1Drain := rfl
@[simp] theorem State.nextCycle_tc : (s.nextCycle).tc = s.tc := rfl
@[simp] theorem State.nextCycle_t0 : (s.nextCycle).t0 = s.t0 := rfl
@[simp] theorem State.nextCycle_cycleStart : (s.nextCycle).cycleStart = s.cycleStart := rfl
@[simp] theorem State.nextCycle_targetMs : (s.nextCycle).targetMs = s.targetMs := rfl
@[simp] theorem State.nextCycle_handle : (s.nextCycle).handle = s.handle := rfl
@[simp] theorem State.nextCycle_brk : (s.nextCycle).brk = s.brk := rfl
@[simp] theorem State.nextCycle_err : (s.nextCycle).err = s.err := rfl
@[simp] theorem State.nextCycle_devIndex : (s.nextCycle).devIndex = s.devIndex := rfl
@[simp] theorem State.nextCycle_freq : (s.nextCycle).freq = s.freq := rfl
@[simp] theorem State.nextCycle_rdTimeoutMs : (s.nextCycle).rdTimeoutMs = s.rdTimeoutMs := rfl
@[simp] theorem State.nextCycle_wrTimeoutMs : (s.nextCycle).wrTimeoutMs = s.wrTimeoutMs := rfl
@[simp] theorem State.nextCycle_lineCfg : (s.nextCycle).lineCfg = s.lineCfg := rfl
@[simp] theorem State.nextCycle_cq : (s.nextCycle).cq = s.cq := rfl
@[simp] theorem State.nextCycle_cqTxOpen : (s.nextCycle).cqTxOpen = s.cqTxOpen := rfl
@[simp] theorem State.nextCycle_rq : (s.nextCycle).rq = s.rq := rfl
@[simp] theorem State.nextCycle_rqRxOpen : (s.nextCycle).rqRxOpen = s.rqRxOpen := rfl
@[simp] theorem State.nextCycle_now : (s.nextCycle).now = s.now := rfl
@[simp] theorem State.nextCycle_devOpen : (s.nextCycle).devOpen = s.devOpen := rfl
@[simp] theorem State.nextCycle_line : (s.nextCycle).line = s.line := rfl
@[simp] theorem State.nextCycle_trace : (s.nextCycle).trace = s.trace := rfl
@[simp] theorem State.nextCycle_log : (s.nextCycle).log = s.log := rfl
@[simp] theorem State.nextCycle_wake : (s.nextCycle).wake = none := rfl
@[simp] theorem State.nextCycle_params : (s.nextCycle).params = s.params := rfl
@[simp] theorem State.nextCycle_sched : (s.nextCycle).sched = s.sched := rfl
@[simp] theorem State.nextCycle_moveCount : (s.nextCycle).moveCount = s.moveCount := rfl
@[simp] theorem State.nextCycle_draws : (s.nextCycle).draws = s.draws := rfl
@[simp] theorem State.nextCycle_drawCount : (s.nextCycle).drawCount = s.drawCount := rfl
@[simp] theorem State.nextCycle_cur : (s.nextCycle).cur = s.cur := rfl

/-! ## State.advanced -/

@[simp] theorem State.advanced_fb : (s.advanced).fb = s.fb := rfl
@[simp] theorem State.advanced_ls : (s.advanced).ls = s.ls := rfl
@[simp] theorem State.advanced_ph : (s.advanced).ph = s.ph := rfl
@[simp] theorem State.advanced_tc : (s.advanced).tc = s.tc := rfl
@[simp] theorem State.advanced_t0 : (s.advanced).t0 = s.t0 := rfl
@[simp] theorem State.advanced_cycleStart : (s.advanced).cycleStart = s.cycleStart := rfl
@[simp] theorem State.advanced_targetMs : (s.advanced).targetMs = s.targetMs := rfl
@[simp] theorem State.advanced_handle : (s.advanced).handle = s.handle := rfl
@[simp] theorem State.advanced_brk : (s.advanced).brk = s.brk := rfl
@[simp] theorem State.advanced_err : (s.advanced).err = s.err := rfl
@[simp] theorem State.advanced_devIndex : (s.advanced).devIndex = s.devIndex := rfl
@[simp] theorem State.advanced_freq : (s.advanced).freq = s.freq := rfl
@[simp] theorem State.advanced_rdTimeoutMs : (s.advanced).rdTimeoutMs = s.rdTimeoutMs := rfl
@[simp] theorem State.advanced_wrTimeoutMs : (s.advanced).wrTimeoutMs = s.wrTimeoutMs := rfl
@[simp] theorem State.advanced_lineCfg : (s.advanced).lineCfg = s.lineCfg := rfl
@[simp] theorem State.advanced_cq : (s.advanced).cq = s.cq := rfl
@[simp] theorem State.advanced_cqTxOpen : (s.advanced).cqTxOpen = s.cqTxOpen := rfl
@[simp] theorem State.advanced_rq : (s.advanced).rq = s.rq := rfl
@[simp] theorem State.advanced_rqRxOpen : (s.advanced).rqRxOpen = s.rqRxOpen := rfl
@[simp] theorem State.advanced_now : (s.advanced).now = s.now := rfl
@[simp] theorem State.advanced_devOpen : (s.advanced).devOpen = s.devOpen := rfl
@[simp] theorem State.advanced_line : (s.advanced).line = s.line := rfl
@[simp] theorem State.advanced_trace : (s.advanced).trace = s.trace := rfl
@[simp] theorem State.advanced_log : (s.advanced).log = s.log := rfl
@[simp] theorem State.advanced_wake : (s.advanced).wake = s.wake := rfl
@[simp] theorem State.advanced_params : (s.advanced).params = s.params := rfl
@[simp] theorem State.advanced_sched : (s.advanced).sched = s.sched.tail := rfl
@[simp] theorem State.advanced_moveCount : (s.advanced).moveCount = s.moveCount + 1 := rfl
@[simp] theorem State.advanced_draws : (s.advanced).draws = s.draws := rfl
@[simp] theorem State.advanced_drawCount : (s.advanced).drawCount = s.drawCount := rfl
@[simp] theorem State.advanced_cur : (s.advanced).cur = s.cur := rfl

/-! ## State.beginStep -/

@[simp] theorem State.beginStep_fb : (s.beginStep).fb = s.fb := rfl
@[simp] theorem State.beginStep_ls : (s.beginStep).ls = s.ls := rfl
@[simp] theorem State.beginStep_ph : (s.beginStep).ph = s.ph := rfl
@[simp] theorem State.beginStep_tc : (s.beginStep).tc = s.tc := rfl
@[simp] theorem State.beginStep_t0 : (s.beginStep).t0 = s.t0 := rfl
@[simp] theorem State.beginStep_cycleStart : (s.beginStep).cycleStart = s.cycleStart := rfl
@[simp] theorem State.beginStep_targetMs : (s.beginStep).targetMs = s.targetMs := rfl
@[simp] theorem State.beginStep_handle : (s.beginStep).handle = s.handle := rfl
@[simp] theorem State.beginStep_brk : (s.beginStep).brk = s.brk := rfl
@[simp] theorem State.beginStep_err : (s.beginStep).err = s.err := rfl
@[simp] theorem State.beginStep_devIndex : (s.beginStep).devIndex = s.devIndex := rfl
@[simp] theorem State.beginStep_freq : (s.beginStep).freq = s.freq := rfl
@[simp] theorem State.beginStep_rdTimeoutMs : (s.beginStep).rdTimeoutMs = s.rdTimeoutMs := rfl
@[simp] theorem State.beginStep_wrTimeoutMs : (s.beginStep).wrTimeoutMs = s.wrTimeoutMs := rfl
@[simp] theorem State.beginStep_lineCfg : (s.beginStep).lineCfg = s.lineCfg := rfl
@[simp] theorem State.beginStep_cq : (s.beginStep).cq = s.cq := rfl
@[simp] theorem State.beginStep_cqTxOpen : (s.beginStep).cqTxOpen = s.cqTxOpen := rfl
@[simp] theorem State.beginStep_rq : (s.beginStep).rq = s.rq := rfl
@[simp] theorem State.beginStep_rqRxOpen : (s.beginStep).rqRxOpen = s.rqRxOpen := rfl
@[simp] theorem State.beginStep_now : (s.beginStep).now = s.now + s.nextDraw.elapsed := rfl
@[simp] theorem State.beginStep_devOpen : (s.beginStep).devOpen = s.devOpen := rfl
@[simp] theorem State.beginStep_line : (s.beginStep).line = s.line := rfl
@[simp] theorem State.beginStep_trace : (s.beginStep).trace = s.trace := rfl
@[simp] theorem State.beginStep_log : (s.beginStep).log = s.log := rfl
@[simp] theorem State.beginStep_wake : (s.beginStep).wake = s.wake := rfl
@[simp] theorem State.beginStep_params : (s.beginStep).params = s.params := rfl
@[simp] theorem State.beginStep_sched : (s.beginStep).sched = s.sched := rfl
@[simp] theorem State.beginStep_moveCount : (s.beginStep).moveCount = s.moveCount := rfl
@[simp] theorem State.beginStep_draws : (s.beginStep).draws = s.draws.tail := rfl
@[simp] theorem State.beginStep_drawCount : (s.beginStep).drawCount = s.drawCount + 1 := rfl
@[simp] theorem State.beginStep_cur : (s.beginStep).cur = s.nextDraw := rfl

/-! ## State.record -/

@[simp] theorem State.record_fb (op : Prim) (r : Answer) : (s.record op r).fb = s.fb := rfl
@[simp] theorem State.record_ls (op : Prim) (r : Answer) : (s.record op r).ls = s.ls := rfl
@[simp] theorem State.record_ph (op : Prim) (r : Answer) : (s.record op r).ph = s.ph := rfl
@[simp] theorem State.record_tc (op : Prim) (r : Answer) : (s.record op r).tc = s.tc := rfl
@[simp] theorem State.record_t0 (op : Prim) (r : Answer) : (s.record op r).t0 = s.t0 := rfl
@[simp] theorem State.record_cycleStart (op : Prim) (r : Answer) : (s.record op r).cycleStart = s.cycleStart := rfl
@[simp] theorem State.record_targetMs (op : Prim) (r : Answer) : (s.record op r).targetMs = s.targetMs := rfl
@[simp] theorem State.record_handle (op : Prim) (r : Answer) : (s.record op r).handle = s.handle := rfl
@[simp] theorem State.record_brk (op : Prim) (r : Answer) : (s.record op r).brk = s.brk := rfl
@[simp] theorem State.record_err (op : Prim) (r : Answer) : (s.record op r).err = s.err := rfl
@[simp] theorem State.record_devIndex (op : Prim) (r : Answer) : (s.record op r).devIndex = s.devIndex := rfl
@[simp] theorem State.record_freq (op : Prim) (r : Answer) : (s.record op r).freq = s.freq := rfl
@[simp] theorem State.record_rdTimeoutMs (op : Prim) (r : Answer) : (s.record op r).rdTimeoutMs = s.rdTimeoutMs := rfl
@[simp] theorem State.record_wrTimeoutMs (op : Prim) (r : Answer) : (s.record op r).wrTimeoutMs = s.wrTimeoutMs := rfl
@[simp] theorem State.record_lineCfg (op : Prim) (r : Answer) : (s.record op r).lineCfg = s.lineCfg := rfl
@[simp] theorem State.record_cq (op : Prim) (r : Answer) : (s.record op r).cq = s.cq := rfl
@[simp] theorem State.record_cqTxOpen (op : Prim) (r : Answer) : (s.record op r).cqTxOpen = s.cqTxOpen := rfl
@[simp] theorem State.record_rq (op : Prim) (r : Answer) : (s.record op r).rq = s.rq := rfl
@[simp] theorem State.record_rqRxOpen (op : Prim) (r : Answer) : (s.record op r).rqRxOpen = s.rqRxOpen := rfl
@[simp] theorem State.record_now (op : Prim) (r : Answer) : (s.record op r).now = s.now := rfl
@[simp] theorem State.record_devOpen (op : Prim) (r : Answer) : (s.record op r).devOpen = s.devOpen := rfl
@[simp] theorem State.record_line (op : Prim) (r : Answer) : (s.record op r).line = s.line := rfl
@[simp] theorem State.record_trace (op : Prim) (r : Answer) : (s.record op r).trace = s.trace ++ [⟨s.now, op, r⟩] := rfl
@[simp] theorem State.record_log (op : Prim) (r : Answer) : (s.record op r).log = s.log := rfl
@[simp] theorem State.record_wake (op : Prim) (r : Answer) : (s.record op r).wake = s.wake := rfl
@[simp] theorem State.record_params (op : Prim) (r : Answer) : (s.record op r).params = s.params := rfl
@[simp] theorem State.record_sched (op : Prim) (r : Answer) : (s.record op r).sched = s.sched := rfl
@[simp] theorem State.record_moveCount (op : Prim) (r : Answer) : (s.record op r).moveCount = s.moveCount := rfl
@[simp] theorem State.record_draws (op : Prim) (r : Answer) : (s.record op r).draws = s.draws := rfl
@[simp] theorem State.record_drawCount (op : Prim) (r : Answer) : (s.record op r).drawCount = s.drawCount := rfl
@[simp] theorem State.record_cur (op : Prim) (r : Answer) : (s.record op r).cur = s.cur := rfl

/-! ## State.placeCommand -/

@[simp] theorem State.placeCommand_fb (i : Instr) : (s.placeCommand i).fb = s.fb := rfl
@[simp] theorem State.placeCommand_ls (i : Instr) : (s.placeCommand i).ls = .running := rfl
@[simp] theorem State.placeCommand_ph (i : Instr) : (s.placeCommand i).ph = .s1Drain := rfl
@[simp] theorem State.placeCommand_tc (i : Instr) : (s.placeCommand i).tc = s.tc := rfl
@[simp] theorem State.placeCommand_t0 (i : Instr) : (s.placeCommand i).t0 = s.t0 := rfl
@[simp] theorem State.placeCommand_cycleStart (i : Instr) : (s.placeCommand i).cycleStart = s.cycleStart := rfl
@[simp] theorem State.placeCommand_targetMs (i : Instr) : (s.placeCommand i).targetMs = s.targetMs := rfl
@[simp] theorem State.placeCommand_handle (i : Instr) : (s.placeCommand i).handle = s.handle := rfl
@[simp] theorem State.placeCommand_brk (i : Instr) : (s.placeCommand i).brk = s.brk := rfl
@[simp] theorem State.placeCommand_err (i : Instr) : (s.placeCommand i).err = s.err := rfl
@[simp] theorem State.placeCommand_devIndex (i : Instr) : (s.placeCommand i).devIndex = s.devIndex := rfl
@[simp] theorem State.placeCommand_freq (i : Instr) : (s.placeCommand i).freq = s.freq := rfl
@[simp] theorem State.placeCommand_rdTimeoutMs (i : Instr) : (s.placeCommand i).rdTimeoutMs = s.rdTimeoutMs := rfl
@[simp] theorem State.placeCommand_wrTimeoutMs (i : Instr) : (s.placeCommand i).wrTimeoutMs = s.wrTimeoutMs := rfl
@[simp] theorem State.placeCommand_lineCfg (i : Instr) : (s.placeCommand i).lineCfg = s.lineCfg := rfl
@[simp] theorem State.placeCommand_cq (i : Instr) : (s.placeCommand i).cq = i :: s.cq := rfl
@[simp] theorem State.placeCommand_cqTxOpen (i : Instr) : (s.placeCommand i).cqTxOpen = s.cqTxOpen := rfl
@[simp] theorem State.placeCommand_rq (i : Instr) : (s.placeCommand i).rq = s.rq := rfl
@[simp] theorem State.placeCommand_rqRxOpen (i : Instr) : (s.placeCommand i).rqRxOpen = s.rqRxOpen := rfl
@[simp] theorem State.placeCommand_now (i : Instr) : (s.placeCommand i).now = s.now := rfl
@[simp] theorem State.placeCommand_devOpen (i : Instr) : (s.placeCommand i).devOpen = s.devOpen := rfl
@[simp] theorem State.placeCommand_line (i : Instr) : (s.placeCommand i).line = s.line := rfl
@[simp] theorem State.placeCommand_trace (i : Instr) : (s.placeCommand i).trace = s.trace := rfl
@[simp] theorem State.placeCommand_log (i : Instr) : (s.placeCommand i).log = s.log := rfl
@[simp] theorem State.placeCommand_wake (i : Instr) : (s.placeCommand i).wake = none := rfl
@[simp] theorem State.placeCommand_params (i : Instr) : (s.placeCommand i).params = s.params := rfl
@[simp] theorem State.placeCommand_sched (i : Instr) : (s.placeCommand i).sched = [.seq] := rfl
@[simp] theorem State.placeCommand_moveCount (i : Instr) : (s.placeCommand i).moveCount = s.moveCount := rfl
@[simp] theorem State.placeCommand_draws (i : Instr) : (s.placeCommand i).draws = s.draws := rfl
@[simp] theorem State.placeCommand_drawCount (i : Instr) : (s.placeCommand i).drawCount = s.drawCount := rfl
@[simp] theorem State.placeCommand_cur (i : Instr) : (s.placeCommand i).cur = s.cur := rfl

/-! ## State.begun -/

@[simp] theorem State.begun_fb : s.begun.fb = s.fb := rfl
@[simp] theorem State.begun_ls : s.begun.ls = s.ls := rfl
@[simp] theorem State.begun_ph : s.begun.ph = s.ph := rfl
@[simp] theorem State.begun_tc : s.begun.tc = s.tc := rfl
@[simp] theorem State.begun_t0 : s.begun.t0 = s.t0 := rfl
@[simp] theorem State.begun_cycleStart : s.begun.cycleStart = s.cycleStart := rfl
@[simp] theorem State.begun_targetMs : s.begun.targetMs = s.targetMs := rfl
@[simp] theorem State.begun_handle : s.begun.handle = s.handle := rfl
@[simp] theorem State.begun_brk : s.begun.brk = s.brk := rfl
@[simp] theorem State.begun_err : s.begun.err = s.err := rfl
@[simp] theorem State.begun_devIndex : s.begun.devIndex = s.devIndex := rfl
@[simp] theorem State.begun_freq : s.begun.freq = s.freq := rfl
@[simp] theorem State.begun_rdTimeoutMs : s.begun.rdTimeoutMs = s.rdTimeoutMs := rfl
@[simp] theorem State.begun_wrTimeoutMs : s.begun.wrTimeoutMs = s.wrTimeoutMs := rfl
@[simp] theorem State.begun_lineCfg : s.begun.lineCfg = s.lineCfg := rfl
@[simp] theorem State.begun_cq : s.begun.cq = s.cq := rfl
@[simp] theorem State.begun_cqTxOpen : s.begun.cqTxOpen = s.cqTxOpen := rfl
@[simp] theorem State.begun_rq : s.begun.rq = s.rq := rfl
@[simp] theorem State.begun_rqRxOpen : s.begun.rqRxOpen = s.rqRxOpen := rfl
@[simp] theorem State.begun_now : s.begun.now = s.now + s.nextDraw.elapsed := rfl
@[simp] theorem State.begun_devOpen : s.begun.devOpen = s.devOpen := rfl
@[simp] theorem State.begun_line : s.begun.line = s.line := rfl
@[simp] theorem State.begun_trace : s.begun.trace = s.trace := rfl
@[simp] theorem State.begun_log : s.begun.log = s.log := rfl
@[simp] theorem State.begun_wake : s.begun.wake = s.wake := rfl
@[simp] theorem State.begun_params : s.begun.params = s.params := rfl
@[simp] theorem State.begun_sched : s.begun.sched = s.sched.tail := rfl
@[simp] theorem State.begun_moveCount : s.begun.moveCount = s.moveCount + 1 := rfl
@[simp] theorem State.begun_draws : s.begun.draws = s.draws.tail := rfl
@[simp] theorem State.begun_drawCount : s.begun.drawCount = s.drawCount + 1 := rfl
@[simp] theorem State.begun_cur : s.begun.cur = s.nextDraw := rfl

end Sys2Proof.Machine
end

