-- ==== Sys2Proof/Laws/Ops.lean ====
section
/-! SUPPORT. One lemma per shared operation that says everything it can do, for later proofs to cite. -/

namespace Sys2Proof.Machine

/-! ## Errors -/

/-- The codes of R221, and hence the bits of `ERR`, are pairwise distinct. -/
theorem ErrCode.code_injective : Function.Injective ErrCode.code := by
  intro a b; cases a <;> cases b <;> simp [ErrCode.code]

/-- Setting a bit keeps every bit already set. -/
theorem errSet_sticky (err : BitVec 16) (e : ErrCode) : err &&& errSet err e = err := by
  unfold errSet; ext i; simp; tauto

/-- No error but the reserved `E_READ` has a reserved bit (R221). -/
theorem ErrCode.mask_reserved {e : ErrCode} (h : e ≠ .eRead) : e.mask &&& errReserved = 0#16 := by
  cases e <;> first | exact absurd rfl h | decide

/-- Raising an error other than `E_READ` keeps the reserved bits of `ERR` at 0. -/
theorem errSet_reserved {err : BitVec 16} {e : ErrCode} (he : e ≠ .eRead) (h : err &&& errReserved = 0#16) :
    errSet err e &&& errReserved = 0#16 := by
  have hm := ErrCode.mask_reserved he
  unfold errSet
  rw [BitVec.and_comm, BitVec.and_or_distrib_left, BitVec.and_comm, h, BitVec.and_comm, hm]; rfl

/-! ## `DEV_OPEN` -/

/-- The index added is in the set. -/
theorem mem_insertIndex_self (i : Word) (l : List Word) : i ∈ insertIndex i l := by
  induction l with
  | nil => simp [insertIndex]
  | cons j l ih =>
    simp only [insertIndex]
    split
    · simp
    · split <;> simp_all

/-- Adding an index adds that one and no other. -/
theorem mem_insertIndex {i j : Word} {l : List Word} : j ∈ insertIndex i l ↔ j = i ∨ j ∈ l := by
  induction l with
  | nil => simp [insertIndex]
  | cons k l ih =>
    simp only [insertIndex]
    split
    · simp
    · split
      · simp_all
      · simp only [List.mem_cons, ih]; tauto

/-- Taking an index out takes that one and no other. -/
theorem mem_removeIndex {i j : Word} {l : List Word} : j ∈ removeIndex i l ↔ j ∈ l ∧ j ≠ i := by
  simp [removeIndex]

/-! ## Transport primitives -/

/-- `DEV_OPEN` in its canonical form: strictly rising, so that equal sets are equal lists (R43). -/
def Rising (l : List Word) : Prop := l.Pairwise fun i j => i.toNat < j.toNat

/-- Adding an index keeps the canonical form. -/
theorem rising_insertIndex (i : Word) {l : List Word} (h : Rising l) : Rising (insertIndex i l) := by
  induction l with
  | nil => exact List.pairwise_singleton _ _
  | cons j l ih =>
    obtain ⟨hj, hl⟩ := List.pairwise_cons.1 h
    unfold insertIndex
    split
    · rename_i hlt
      refine List.pairwise_cons.2 ⟨fun k hk => ?_, h⟩
      obtain rfl | hk := List.mem_cons.1 hk
      · exact hlt
      · exact hlt.trans (hj k hk)
    · rename_i hge
      split
      · exact h
      · rename_i hne
        refine List.pairwise_cons.2 ⟨fun k hk => ?_, ih hl⟩
        obtain rfl | hk := mem_insertIndex.1 hk
        · exact lt_of_le_of_ne (Nat.not_lt.1 hge) fun e => hne (BitVec.eq_of_toNat_eq e.symm)
        · exact hj k hk

/-- Taking an index out keeps the canonical form. -/
theorem rising_removeIndex (i : Word) {l : List Word} (h : Rising l) : Rising (removeIndex i l) := List.Pairwise.filter _ h

/-- Everything `T_OPEN` can do (R92, R93). -/
theorem State.tOpen_cases (s : State) :
    (s.devIndex ∈ s.devOpen ∧
      s.tOpen = (.error .alreadyOpen, { s.record s.openArgs (.err .alreadyOpen) with line := .unknown })) ∨
    (s.devIndex ∉ s.devOpen ∧ s.cur.answersOk = true ∧
      s.tOpen = (.ok (), { s.record s.openArgs .ok with devOpen := insertIndex s.devIndex s.devOpen, line := .unknown })) ∨
    (s.devIndex ∉ s.devOpen ∧ s.cur.answersOk = false ∧
      s.tOpen = (.error .openFailed, { s.record s.openArgs (.err .openFailed) with line := .unknown })) := by
  by_cases h : s.devIndex ∈ s.devOpen
  · exact .inl ⟨h, by simp [State.tOpen, State.openAnswer, h]⟩
  · cases hd : s.cur.answersOk
    · exact .inr (.inr ⟨h, rfl, by simp [State.tOpen, State.openAnswer, State.drawn, h, hd]⟩)
    · exact .inr (.inl ⟨h, rfl, by simp [State.tOpen, State.openAnswer, State.drawn, h, hd]⟩)

/-- Everything `T_CONFIGURE` can do (R95). -/
theorem State.tConfigure_cases (s : State) :
    (s.cur.answersOk = true ∧ s.tConfigure = (.ok (), { s.record s.configureArgs .ok with line := .unknown })) ∨
    (s.cur.answersOk = false ∧
      s.tConfigure = (.error .configFailed, { s.record s.configureArgs (.err .configFailed) with line := .unknown })) := by
  cases h : s.cur.answersOk <;> simp [State.tConfigure, State.drawn, answerOf, h]

/-- Everything `T_WRITE` can do (R98). -/
theorem State.tWrite_cases (s : State) :
    (s.cur.answersOk = true ∧ s.tWrite = (.ok (), { s.record (.tWrite s.fb.frame) .ok with line := .mark })) ∨
    (s.cur.answersOk = false ∧
      s.tWrite = (.error .writeFailed, { s.record (.tWrite s.fb.frame) (.err .writeFailed) with line := .unknown })) := by
  cases h : s.cur.answersOk <;>
    simp [State.tWrite, State.drawn, answerOf, State.writeArgs, State.record, lineAfterWrite, h]

/-- Everything `T_SET_BREAK` can do (R100). -/
theorem State.tSetBreak_cases (s : State) :
    (s.cur.answersOk = true ∧ s.tSetBreak = (.ok (), { s.record .tSetBreak .ok with line := .breakLow })) ∨
    (s.cur.answersOk = false ∧
      s.tSetBreak = (.error .breakFailed, { s.record .tSetBreak (.err .breakFailed) with line := .unknown })) := by
  cases h : s.cur.answersOk <;> simp [State.tSetBreak, State.drawn, answerOf, lineAfterBreak, h]

/-- Everything `T_CLEAR_BREAK` can do (R101). -/
theorem State.tClearBreak_cases (s : State) :
    (s.cur.answersOk = true ∧ s.tClearBreak = (.ok (), { s.record .tClearBreak .ok with line := .mark })) ∨
    (s.cur.answersOk = false ∧
      s.tClearBreak = (.error .breakFailed, { s.record .tClearBreak (.err .breakFailed) with line := .unknown })) := by
  cases h : s.cur.answersOk <;> simp [State.tClearBreak, State.drawn, answerOf, lineAfterBreak, h]

/-- Everything `T_CLOSE` can do (R102). -/
theorem State.tClose_cases (s : State) :
    (s.cur.answersOk = true ∧
      s.tClose = (.ok (), { s.record .tClose .ok with devOpen := removeIndex s.devIndex s.devOpen, line := .unknown })) ∨
    (s.cur.answersOk = false ∧
      s.tClose = (.error .closeFailed,
        { s.record .tClose (.err .closeFailed) with devOpen := removeIndex s.devIndex s.devOpen, line := .unknown })) := by
  cases h : s.cur.answersOk <;> simp [State.tClose, State.drawn, answerOf, h]

/-- Everything `T_ENUMERATE` can do (R103). -/
theorem State.tEnumerate_cases (s : State) :
    (s.cur.answersOk = true ∧ s.tEnumerate = (.ok s.cur.devices, s.record .tEnumerate (.okDevices s.cur.devices))) ∨
    (s.cur.answersOk = false ∧ s.tEnumerate = (.error .enumFailed, s.record .tEnumerate (.err .enumFailed))) := by
  cases h : s.cur.answersOk <;> simp [State.tEnumerate, h]

/-! ## Sleeps, responses, the host -/

/-- Everything a sleep can do in one step (R42). -/
theorem State.sleepThen_cases (s : State) (t d : Nat) (p : Phase) :
    (s.wakeTime t d ≤ s.now ∧ s.sleepThen t d p = { s with wake := none, ph := p }) ∨
    (s.now < s.wakeTime t d ∧ s.sleepThen t d p = { s with wake := some (s.wakeTime t d) }) := by
  by_cases h : s.wakeTime t d ≤ s.now
  · exact .inl ⟨h, by simp [State.sleepThen, h]⟩
  · exact .inr ⟨by omega, by simp [State.sleepThen, h]⟩

/-- Everything the hold of a preamble can do in one step (R164, R166). -/
theorem State.holdThen_cases (s : State) (t d : Nat) (p : Phase) :
    (s.tc = .adequate ∧ s.wakeTime t d ≤ s.now ∧ s.holdThen t d p = { s with wake := none, ph := p }) ∨
    (s.tc = .adequate ∧ s.now < s.wakeTime t d ∧ s.holdThen t d p = { s with wake := some (s.wakeTime t d) }) ∨
    (s.tc ≠ .adequate ∧ s.holdThen t d p = { s with ph := p }) := by
  by_cases h : s.tc = .adequate
  · obtain ⟨hw, e⟩ | ⟨hw, e⟩ := s.sleepThen_cases t d p
    · exact .inl ⟨h, hw, by simp [State.holdThen, h, e]⟩
    · exact .inr (.inl ⟨h, hw, by simp [State.holdThen, h, e]⟩)
  · exact .inr (.inr ⟨h, by simp [State.holdThen, h]⟩)

/-- Everything the assert of a preamble can do (R163). -/
theorem State.assertThen_cases (s : State) (p q : Phase) :
    (s.cur.answersOk = true ∧ s.assertThen p q = { s.record .tSetBreak .ok with line := .breakLow, brk := true, ph := p }) ∨
    (s.cur.answersOk = false ∧
      s.assertThen p q = State.skipTo { s.record .tSetBreak (.err .breakFailed) with line := .unknown } q .eBreakOn .nothing) := by
  unfold State.assertThen
  obtain ⟨h, e⟩ | ⟨h, e⟩ := s.tSetBreak_cases <;> rw [e]
  · exact .inl ⟨h, rfl⟩
  · exact .inr ⟨h, rfl⟩

/-- Everything the deassert of a preamble can do (R165). -/
theorem State.deassertThen_cases (s : State) (p q : Phase) :
    (s.cur.answersOk = true ∧ s.deassertThen p q = { s.record .tClearBreak .ok with line := .mark, brk := false, ph := p }) ∨
    (s.cur.answersOk = false ∧
      s.deassertThen p q = State.skipTo { s.record .tClearBreak (.err .breakFailed) with line := .unknown } q .eBreakOff .nothing) := by
  unfold State.deassertThen
  obtain ⟨h, e⟩ | ⟨h, e⟩ := s.tClearBreak_cases <;> rw [e]
  · exact .inl ⟨h, rfl⟩
  · exact .inr ⟨h, rfl⟩

/-- Everything `RspSend` can do (R207). -/
theorem State.rspSend_cases (s : State) (m : Response) :
    (s.rqRxOpen = true ∧ s.rspSend m = { s with rq := s.rq ++ [m] }) ∨
    (s.rqRxOpen = false ∧ s.rspSend m = s.raise .eRspSend .nothing) := by
  cases h : s.rqRxOpen <;> simp [State.rspSend, h]

/-- Everything `HostSend` can do (R191). -/
theorem State.hostSend_cases (s : State) (w : Nat) :
    s.hostSend w = s ∨ ∃ i, s.params.format.decode w = .ok i ∧ s.cqTxOpen = true ∧ s.hostSend w = { s with cq := s.cq ++ [i] } := by
  unfold State.hostSend
  split
  · rename_i i hi
    cases h : s.cqTxOpen
    · exact .inl (by simp)
    · exact .inr ⟨i, hi, rfl, by simp⟩
  · exact .inl rfl

/-- Everything `FB_SET` can do (R112). -/
theorem fbSet_cases (m : Memory) (c : Nat) (v : Byte) :
    ((1 ≤ c ∧ c ≤ 512) ∧ fbSet m c v = (.ok (), m.write c v)) ∨
    (¬(1 ≤ c ∧ c ≤ 512) ∧ fbSet m c v = (.error .bounds, m)) := by
  by_cases h : 1 ≤ c ∧ c ≤ 512
  · exact .inl ⟨h, by simp [fbSet, (validChannel_iff c).2 h]⟩
  · refine .inr ⟨h, ?_⟩
    have : validChannel c = false := by
      cases hv : validChannel c
      · rfl
      · exact absurd ((validChannel_iff c).1 hv) h
    simp [fbSet, this]

end Sys2Proof.Machine
end

