-- ==== Sys2Proof/Laws/PerInstr.lean ====
section
/-! SUPPORT. Statements for all commands, one lemma per constructor of Instr. Family EncodedTag: the encoder puts the variant's tag number of
R74 into bits 31 to 24. -/

namespace Sys2Proof.Laws.EncodedTag

/-- Bits 31 to 24 of a command's word are the tag number of its row in R74. -/
def Statement (i : Instr) : Prop := (encode i).toNat / 16777216 = i.tag

/-- Bits 31 to 24 of a word in format CW. -/
theorem tag_of_word {tag index : Nat} (value : Byte) (ht : tag < 256) (hi : index < 65536) :
    (BitVec.ofNat 32 (Config.format.word tag index value)).toNat / 16777216 = tag := by
  have := value.isLt
  rw [format_word_toNat value ht hi]
  omega

theorem setChannel (index : Nat) (value : Byte) : Statement (.setChannel index value) :=
  tag_of_word (tag := 0) value (by decide) (Nat.mod_lt _ (by decide))
theorem stop : Statement .stop := tag_of_word _ (by decide) (by decide)
theorem reset : Statement .reset := tag_of_word _ (by decide) (by decide)
theorem clearFrame : Statement .clearFrame := tag_of_word _ (by decide) (by decide)
theorem listDevices : Statement .listDevices := tag_of_word _ (by decide) (by decide)

end Sys2Proof.Laws.EncodedTag
end

