-- ==== Sys2Proof/Laws/Step.lean ====
section
/-! SUPPORT. What one step can do: every phase's and every command's cases, and the inversion of a step. Claims about all steps cite these. -/

namespace Sys2Proof.Machine

/-! ## Commands -/

/-- What executing a command can do (R200 to R204). -/
inductive ExecResult (s : State) : Instr → State → Prop
  | set (c : Nat) (v : Byte) (h : 1 ≤ c ∧ c ≤ 512) : ExecResult s (.setChannel c v) { s with fb := s.fb.write c v }
  | bounds (c : Nat) (v : Byte) (h : ¬(1 ≤ c ∧ c ≤ 512)) : ExecResult s (.setChannel c v) (s.raise .eBounds (.index c))
  | stop : ExecResult s .stop (s.goto .draining .d1Flush)
  | resetOk : s.cur.answersOk = true → ExecResult s .reset { s.record s.configureArgs .ok with line := .unknown }
  | resetErr : s.cur.answersOk = false →
      ExecResult s .reset (State.raise { s.record s.configureArgs (.err .configFailed) with line := .unknown } .eConfig .reset)
  | clear : ExecResult s .clearFrame { s with fb := [] }
  | listSent : s.cur.answersOk = true → s.rqRxOpen = true →
      ExecResult s .listDevices { s.record .tEnumerate (.okDevices s.cur.devices) with rq := s.rq ++ [.deviceList s.cur.devices] }
  | listDropped : s.cur.answersOk = true → s.rqRxOpen = false →
      ExecResult s .listDevices ((s.record .tEnumerate (.okDevices s.cur.devices)).raise .eRspSend .nothing)
  | emptySent : s.cur.answersOk = false → s.rqRxOpen = true →
      ExecResult s .listDevices
        { (s.record .tEnumerate (.err .enumFailed)).raise .eEnum .nothing with rq := s.rq ++ [.deviceList []] }
  | emptyDropped : s.cur.answersOk = false → s.rqRxOpen = false →
      ExecResult s .listDevices
        (((s.record .tEnumerate (.err .enumFailed)).raise .eEnum .nothing).raise .eRspSend .nothing)

/-- Every command answers a next state, and one of these. -/
theorem exec_cases (i : Instr) (s : State) : ∃ t, exec i s = .next t ∧ ExecResult s i t := by
  cases i with
  | setChannel c v =>
    refine ⟨_, rfl, ?_⟩
    obtain ⟨h, e⟩ | ⟨h, e⟩ := fbSet_cases s.fb (operandSlot c) (operandValue v)
    · rw [e]; exact .set c v h
    · rw [e]; exact .bounds c v h
  | stop => exact ⟨_, rfl, .stop⟩
  | reset =>
    refine ⟨_, rfl, ?_⟩
    obtain ⟨h, e⟩ | ⟨h, e⟩ := s.tConfigure_cases
    · rw [e]; exact .resetOk h
    · rw [e]; exact .resetErr h
  | clearFrame => exact ⟨_, rfl, .clear⟩
  | listDevices =>
    refine ⟨_, rfl, ?_⟩
    obtain ⟨h, e⟩ | ⟨h, e⟩ := s.tEnumerate_cases <;> rw [e]
    · obtain ⟨hr, e⟩ | ⟨hr, e⟩ := (s.record .tEnumerate (.okDevices s.cur.devices)).rspSend_cases (.deviceList s.cur.devices) <;>
        simp only [e]
      · exact .listSent h hr
      · exact .listDropped h hr
    · obtain ⟨hr, e⟩ | ⟨hr, e⟩ :=
          ((s.record .tEnumerate (.err .enumFailed)).raise .eEnum .nothing).rspSend_cases (.deviceList []) <;> simp only [e]
      · exact .emptySent h hr
      · exact .emptyDropped h hr

/-- What no command touches (R200 to R204): time, queue, endpoints, latches, parameters and the environment's lists; and but for `Stop` the
position. -/
theorem ExecResult.keeps {s t : State} {i : Instr} (h : ExecResult s i t) :
    t.cq = s.cq ∧ t.cqTxOpen = s.cqTxOpen ∧ t.rqRxOpen = s.rqRxOpen ∧ t.now = s.now ∧ t.wake = s.wake ∧ t.params = s.params ∧
    t.sched = s.sched ∧ t.moveCount = s.moveCount ∧ t.draws = s.draws ∧ t.drawCount = s.drawCount ∧
    (i ≠ .stop → t.ls = s.ls ∧ t.ph = s.ph) := by
  cases h <;> simp

/-! ## Phases -/

/-- What a step of `SEQ` can do on a state whose step has begun at time `t` (R152 to R176). -/
inductive PhaseResult (t : Nat) (s : State) : State → Prop
  | openOk : s.ph = .i1Open → s.devIndex ∉ s.devOpen → s.cur.answersOk = true →
      PhaseResult t s { s.record s.openArgs .ok with
        devOpen := insertIndex s.devIndex s.devOpen, line := .unknown, handle := .opened, t0 := s.now, ph := .i2Settle }
  | openExcl : s.ph = .i1Open → s.devIndex ∈ s.devOpen →
      PhaseResult t s ((State.raise { s.record s.openArgs (.err .alreadyOpen) with line := .unknown }
        .eExcl (.device s.devIndex)).goto .closed .x4Halt)
  | openErr : s.ph = .i1Open → s.devIndex ∉ s.devOpen → s.cur.answersOk = false →
      PhaseResult t s ((State.raise { s.record s.openArgs (.err .openFailed) with line := .unknown }
        .eOpen (.device s.devIndex)).goto .closed .x4Halt)
  | settled : s.ph = .i2Settle → s.wakeTime t s.params.settleUs ≤ s.now →
      PhaseResult t s { s with wake := none, ph := .i3Probe }
  | settling : s.ph = .i2Settle → s.now < s.wakeTime t s.params.settleUs →
      PhaseResult t s { s with wake := some (s.wakeTime t s.params.settleUs) }
  | probe : s.ph = .i3Probe →
      PhaseResult t s { s with tc := classify s.params.coarseThresholdUs (s.now - s.t0), ph := .i4Config }
  | configOk : s.ph = .i4Config → s.cur.answersOk = true →
      PhaseResult t s (State.goto { s.record s.configureArgs .ok with line := .unknown } .running .s1Drain)
  | configErr : s.ph = .i4Config → s.cur.answersOk = false →
      PhaseResult t s ((State.raise { s.record s.configureArgs (.err .configFailed) with line := .unknown }
        .eConfig .initial).goto .closed .x1Clear)
  | drained : s.ph = .s1Drain → s.cq = [] → PhaseResult t s { s with ph := .s2Stamp }
  | command (c : Instr) (rest : List Instr) (u : State) : s.ph = .s1Drain → s.cq = c :: rest →
      ExecResult { s with cq := rest } c u → PhaseResult t s u
  | stamp : s.ph = .s2Stamp → PhaseResult t s { s with cycleStart := s.now, ph := .s3Break }
  | breakOk : s.ph = .s3Break → s.cur.answersOk = true →
      PhaseResult t s { s.record .tSetBreak .ok with line := .breakLow, brk := true, ph := .s4BreakHold }
  | breakErr : s.ph = .s3Break → s.cur.answersOk = false →
      PhaseResult t s (State.skipTo { s.record .tSetBreak (.err .breakFailed) with line := .unknown } .s8Pace .eBreakOn .nothing)
  | breakHeld : s.ph = .s4BreakHold → s.tc = .adequate → s.wakeTime t s.params.breakHoldUs ≤ s.now →
      PhaseResult t s { s with wake := none, ph := .s5Mab }
  | breakHolding : s.ph = .s4BreakHold → s.tc = .adequate → s.now < s.wakeTime t s.params.breakHoldUs →
      PhaseResult t s { s with wake := some (s.wakeTime t s.params.breakHoldUs) }
  | breakNoHold : s.ph = .s4BreakHold → s.tc ≠ .adequate → PhaseResult t s { s with ph := .s5Mab }
  | mabOk : s.ph = .s5Mab → s.cur.answersOk = true →
      PhaseResult t s { s.record .tClearBreak .ok with line := .mark, brk := false, ph := .s6MabHold }
  | mabErr : s.ph = .s5Mab → s.cur.answersOk = false →
      PhaseResult t s (State.skipTo { s.record .tClearBreak (.err .breakFailed) with line := .unknown } .s8Pace .eBreakOff .nothing)
  | mabHeld : s.ph = .s6MabHold → s.tc = .adequate → s.wakeTime t s.params.mabHoldUs ≤ s.now →
      PhaseResult t s { s with wake := none, ph := .s7Write }
  | mabHolding : s.ph = .s6MabHold → s.tc = .adequate → s.now < s.wakeTime t s.params.mabHoldUs →
      PhaseResult t s { s with wake := some (s.wakeTime t s.params.mabHoldUs) }
  | mabNoHold : s.ph = .s6MabHold → s.tc ≠ .adequate → PhaseResult t s { s with ph := .s7Write }
  | writeOk : s.ph = .s7Write → s.cur.answersOk = true →
      PhaseResult t s { s.record (.tWrite s.fb.frame) .ok with line := .mark, ph := .s8Pace }
  | writeErr : s.ph = .s7Write → s.cur.answersOk = false →
      PhaseResult t s (State.skipTo { s.record (.tWrite s.fb.frame) (.err .writeFailed) with line := .unknown } .s8Pace .eWrite .cycle)
  | yielding : s.ph = .s8Pace → s.now < s.wake.getD 0 → PhaseResult t s s
  | paced : s.ph = .s8Pace → s.wake.getD 0 ≤ s.now → s.targetMs * 1000 ≤ s.now - s.cycleStart → PhaseResult t s s.nextCycle
  | pacing : s.ph = .s8Pace → s.wake.getD 0 ≤ s.now → s.now - s.cycleStart < s.targetMs * 1000 →
      PhaseResult t s { s with wake := if s.tc = .adequate then some (s.now + s.params.yieldUs) else none }
  | flush : s.ph = .d1Flush → PhaseResult t s (s.goto .closed .x1Clear)
  | clear : s.ph = .x1Clear → s.params.finalPreamble = false → PhaseResult t s { s with fb := [], ph := .x2ZeroWrite }
  | clearFinal : s.ph = .x1Clear → s.params.finalPreamble = true → PhaseResult t s { s with fb := [], ph := .xpBreak }
  | zeroOk : s.ph = .x2ZeroWrite → s.cur.answersOk = true →
      PhaseResult t s { s.record (.tWrite s.fb.frame) .ok with line := .mark, ph := .x3Release }
  | zeroErr : s.ph = .x2ZeroWrite → s.cur.answersOk = false →
      PhaseResult t s { State.raise { s.record (.tWrite s.fb.frame) (.err .writeFailed) with line := .unknown } .eWrite .final with
        ph := .x3Release }
  | closeOk : s.ph = .x3Release → s.cur.answersOk = true →
      PhaseResult t s { s.record .tClose .ok with
        devOpen := removeIndex s.devIndex s.devOpen, line := .unknown, handle := .none, ph := .x4Halt }
  | closeErr : s.ph = .x3Release → s.cur.answersOk = false →
      PhaseResult t s { State.raise { s.record .tClose (.err .closeFailed) with
        devOpen := removeIndex s.devIndex s.devOpen, line := .unknown } .eClose .nothing with handle := .none, ph := .x4Halt }
  | halt : s.ph = .x4Halt → PhaseResult t s s
  | finalBreakOk : s.ph = .xpBreak → s.cur.answersOk = true →
      PhaseResult t s { s.record .tSetBreak .ok with line := .breakLow, brk := true, ph := .xpBreakHold }
  | finalBreakErr : s.ph = .xpBreak → s.cur.answersOk = false →
      PhaseResult t s
        (State.skipTo { s.record .tSetBreak (.err .breakFailed) with line := .unknown } .x2ZeroWrite .eBreakOn .nothing)
  | finalBreakHeld : s.ph = .xpBreakHold → s.tc = .adequate → s.wakeTime t s.params.breakHoldUs ≤ s.now →
      PhaseResult t s { s with wake := none, ph := .xpMab }
  | finalBreakHolding : s.ph = .xpBreakHold → s.tc = .adequate → s.now < s.wakeTime t s.params.breakHoldUs →
      PhaseResult t s { s with wake := some (s.wakeTime t s.params.breakHoldUs) }
  | finalBreakNoHold : s.ph = .xpBreakHold → s.tc ≠ .adequate → PhaseResult t s { s with ph := .xpMab }
  | finalMabOk : s.ph = .xpMab → s.cur.answersOk = true →
      PhaseResult t s { s.record .tClearBreak .ok with line := .mark, brk := false, ph := .xpMabHold }
  | finalMabErr : s.ph = .xpMab → s.cur.answersOk = false →
      PhaseResult t s
        (State.skipTo { s.record .tClearBreak (.err .breakFailed) with line := .unknown } .x2ZeroWrite .eBreakOff .nothing)
  | finalMabHeld : s.ph = .xpMabHold → s.tc = .adequate → s.wakeTime t s.params.mabHoldUs ≤ s.now →
      PhaseResult t s { s with wake := none, ph := .x2ZeroWrite }
  | finalMabHolding : s.ph = .xpMabHold → s.tc = .adequate → s.now < s.wakeTime t s.params.mabHoldUs →
      PhaseResult t s { s with wake := some (s.wakeTime t s.params.mabHoldUs) }
  | finalMabNoHold : s.ph = .xpMabHold → s.tc ≠ .adequate → PhaseResult t s { s with ph := .x2ZeroWrite }

/-- Every phase answers a next state, and one of these. -/
theorem phaseStep_cases (t : Nat) (s : State) : ∃ u, phaseStep t s = .next u ∧ PhaseResult t s u := by
  unfold phaseStep
  split <;> rename_i hp
  · refine ⟨_, rfl, ?_⟩
    unfold phaseOpen
    obtain ⟨h, e⟩ | ⟨h, hd, e⟩ | ⟨h, hd, e⟩ := s.tOpen_cases <;> rw [e]
    · exact .openExcl hp h
    · exact .openOk hp h hd
    · exact .openErr hp h hd
  · refine ⟨_, rfl, ?_⟩
    obtain ⟨h, e⟩ | ⟨h, e⟩ := s.sleepThen_cases t s.params.settleUs .i3Probe <;> simp only [phaseSettle, e]
    · exact .settled hp h
    · exact .settling hp h
  · exact ⟨_, rfl, .probe hp⟩
  · refine ⟨_, rfl, ?_⟩
    unfold phaseConfig
    obtain ⟨h, e⟩ | ⟨h, e⟩ := s.tConfigure_cases <;> rw [e]
    · exact .configOk hp h
    · exact .configErr hp h
  · unfold phaseDrain
    split
    · rename_i hq; exact ⟨_, rfl, .drained hp hq⟩
    · rename_i c rest hq
      obtain ⟨u, e, hu⟩ := exec_cases c { s with cq := rest }
      exact ⟨u, e, .command c rest u hp hq hu⟩
  · exact ⟨_, rfl, .stamp hp⟩
  · refine ⟨_, rfl, ?_⟩
    obtain ⟨h, e⟩ | ⟨h, e⟩ := s.assertThen_cases _ _ <;> rw [phaseBreak, e]
    · exact .breakOk hp h
    · exact .breakErr hp h
  · refine ⟨_, rfl, ?_⟩
    obtain ⟨ht, h, e⟩ | ⟨ht, h, e⟩ | ⟨ht, e⟩ := s.holdThen_cases t _ _ <;> rw [phaseBreakHold, e]
    · exact .breakHeld hp ht h
    · exact .breakHolding hp ht h
    · exact .breakNoHold hp ht
  · refine ⟨_, rfl, ?_⟩
    obtain ⟨h, e⟩ | ⟨h, e⟩ := s.deassertThen_cases _ _ <;> rw [phaseMab, e]
    · exact .mabOk hp h
    · exact .mabErr hp h
  · refine ⟨_, rfl, ?_⟩
    obtain ⟨ht, h, e⟩ | ⟨ht, h, e⟩ | ⟨ht, e⟩ := s.holdThen_cases t _ _ <;> rw [phaseMabHold, e]
    · exact .mabHeld hp ht h
    · exact .mabHolding hp ht h
    · exact .mabNoHold hp ht
  · refine ⟨_, rfl, ?_⟩
    unfold phaseWrite
    obtain ⟨h, e⟩ | ⟨h, e⟩ := s.tWrite_cases <;> rw [e]
    · exact .writeOk hp h
    · exact .writeErr hp h
  · refine ⟨_, rfl, ?_⟩
    unfold phasePace State.yielding boundaryReached
    split <;> rename_i hy
    · exact .yielding hp (by simpa using hy)
    · have hy' : s.wake.getD 0 ≤ s.now := by simpa using hy
      split <;> rename_i hb
      · exact .paced hp hy' (by simpa using hb)
      · exact .pacing hp hy' (by simpa using hb)
  · exact ⟨_, rfl, .flush hp⟩
  · refine ⟨_, rfl, ?_⟩
    unfold phaseClear
    split <;> rename_i hf
    · exact .clearFinal hp hf
    · exact .clear hp (by simpa using hf)
  · refine ⟨_, rfl, ?_⟩
    unfold phaseZeroWrite
    obtain ⟨h, e⟩ | ⟨h, e⟩ := s.tWrite_cases <;> rw [e]
    · exact .zeroOk hp h
    · exact .zeroErr hp h
  · refine ⟨_, rfl, ?_⟩
    unfold phaseRelease
    obtain ⟨h, e⟩ | ⟨h, e⟩ := s.tClose_cases <;> rw [e]
    · exact .closeOk hp h
    · exact .closeErr hp h
  · exact ⟨_, rfl, .halt hp⟩
  · refine ⟨_, rfl, ?_⟩
    obtain ⟨h, e⟩ | ⟨h, e⟩ := s.assertThen_cases _ _ <;> rw [phaseFinalBreak, e]
    · exact .finalBreakOk hp h
    · exact .finalBreakErr hp h
  · refine ⟨_, rfl, ?_⟩
    obtain ⟨ht, h, e⟩ | ⟨ht, h, e⟩ | ⟨ht, e⟩ := s.holdThen_cases t _ _ <;> rw [phaseFinalBreakHold, e]
    · exact .finalBreakHeld hp ht h
    · exact .finalBreakHolding hp ht h
    · exact .finalBreakNoHold hp ht
  · refine ⟨_, rfl, ?_⟩
    obtain ⟨h, e⟩ | ⟨h, e⟩ := s.deassertThen_cases _ _ <;> rw [phaseFinalMab, e]
    · exact .finalMabOk hp h
    · exact .finalMabErr hp h
  · refine ⟨_, rfl, ?_⟩
    obtain ⟨ht, h, e⟩ | ⟨ht, h, e⟩ | ⟨ht, e⟩ := s.holdThen_cases t _ _ <;> rw [phaseFinalMabHold, e]
    · exact .finalMabHeld hp ht h
    · exact .finalMabHolding hp ht h
    · exact .finalMabNoHold hp ht

/-! ## The phase a step performs -/

section
variable {t : Nat} {s : State}

theorem phaseStep_i1Open (h : s.ph = .i1Open) : phaseStep t s = .next (phaseOpen s) := by unfold phaseStep; rw [h]
theorem phaseStep_i2Settle (h : s.ph = .i2Settle) : phaseStep t s = .next (phaseSettle t s) := by unfold phaseStep; rw [h]
theorem phaseStep_i3Probe (h : s.ph = .i3Probe) : phaseStep t s = .next (phaseProbe s) := by unfold phaseStep; rw [h]
theorem phaseStep_i4Config (h : s.ph = .i4Config) : phaseStep t s = .next (phaseConfig s) := by unfold phaseStep; rw [h]
theorem phaseStep_s1Drain (h : s.ph = .s1Drain) : phaseStep t s = phaseDrain s := by unfold phaseStep; rw [h]
theorem phaseStep_s2Stamp (h : s.ph = .s2Stamp) : phaseStep t s = .next (phaseStamp s) := by unfold phaseStep; rw [h]
theorem phaseStep_s3Break (h : s.ph = .s3Break) : phaseStep t s = .next (phaseBreak s) := by unfold phaseStep; rw [h]
theorem phaseStep_s4BreakHold (h : s.ph = .s4BreakHold) : phaseStep t s = .next (phaseBreakHold t s) := by unfold phaseStep; rw [h]
theorem phaseStep_s5Mab (h : s.ph = .s5Mab) : phaseStep t s = .next (phaseMab s) := by unfold phaseStep; rw [h]
theorem phaseStep_s6MabHold (h : s.ph = .s6MabHold) : phaseStep t s = .next (phaseMabHold t s) := by unfold phaseStep; rw [h]
theorem phaseStep_s7Write (h : s.ph = .s7Write) : phaseStep t s = .next (phaseWrite s) := by unfold phaseStep; rw [h]
theorem phaseStep_s8Pace (h : s.ph = .s8Pace) : phaseStep t s = .next (phasePace s) := by unfold phaseStep; rw [h]
theorem phaseStep_d1Flush (h : s.ph = .d1Flush) : phaseStep t s = .next (phaseFlush s) := by unfold phaseStep; rw [h]
theorem phaseStep_x1Clear (h : s.ph = .x1Clear) : phaseStep t s = .next (phaseClear s) := by unfold phaseStep; rw [h]
theorem phaseStep_x2ZeroWrite (h : s.ph = .x2ZeroWrite) : phaseStep t s = .next (phaseZeroWrite s) := by unfold phaseStep; rw [h]
theorem phaseStep_x3Release (h : s.ph = .x3Release) : phaseStep t s = .next (phaseRelease s) := by unfold phaseStep; rw [h]
theorem phaseStep_x4Halt (h : s.ph = .x4Halt) : phaseStep t s = .next (phaseHalt s) := by unfold phaseStep; rw [h]
theorem phaseStep_xpBreak (h : s.ph = .xpBreak) : phaseStep t s = .next (phaseFinalBreak s) := by unfold phaseStep; rw [h]
theorem phaseStep_xpBreakHold (h : s.ph = .xpBreakHold) : phaseStep t s = .next (phaseFinalBreakHold t s) := by unfold phaseStep; rw [h]
theorem phaseStep_xpMab (h : s.ph = .xpMab) : phaseStep t s = .next (phaseFinalMab s) := by unfold phaseStep; rw [h]
theorem phaseStep_xpMabHold (h : s.ph = .xpMabHold) : phaseStep t s = .next (phaseFinalMabHold t s) := by unfold phaseStep; rw [h]

end

/-! ## The step -/

/-- A phase of the spec's own in its loop state is a position of every build. -/
theorem State.placed_of_atPhase {s : State} {p : Phase} (h : s.atPhase p) (hp : p.ofFinalPreamble = false) : s.placed :=
  ⟨h.2 ▸ h.1, fun e => by rw [h.2, hp] at e; cases e⟩

/-- A step of `SEQ` on its turn, at a position of the block. -/
theorem step_seq {s : State} (ht : s.seqTurn) (hp : s.placed) : step s = phaseStep s.now s.begun := by
  have hp : s.advanced.placed := hp
  unfold step
  rw [ht]
  exact if_pos hp

/-- A step of `SEQ` at a position that is none of the block's. -/
theorem step_misplaced {s : State} (ht : s.seqTurn) (hp : ¬s.placed) : step s = .fault .illegalPosition := by
  have hp : ¬s.advanced.placed := hp
  unfold step
  rw [ht]
  exact if_neg hp

/-- Where the next `n + 1` moves are `SEQ`'s, the first is, and then the next `n` are. -/
theorem State.seqTurns_succ {s : State} {n : Nat} (h : s.seqTurns (n + 1)) :
    s.seqTurn ∧ ∀ t : State, t.sched = s.sched.tail → t.seqTurns n := by
  cases hs : s.sched with
  | nil => rw [State.seqTurns, hs] at h; cases h
  | cons m l =>
    rw [State.seqTurns, hs] at h
    obtain ⟨rfl, hl⟩ := List.cons.inj h
    exact ⟨by rw [State.seqTurn, State.nextMove, hs]; rfl, fun t ht => by rw [State.seqTurns, ht]; exact hl⟩

/-- What a step can do: `SEQ` acts on the state its step has begun with, or another agent makes its move. -/
theorem step_cases {s t : State} (h : step s = .next t) :
    (s.seqTurn ∧ s.placed ∧ PhaseResult s.now s.begun t) ∨ (¬s.seqTurn ∧ agentStep s.nextMove s.advanced = .next t) := by
  by_cases hs : s.seqTurn
  · by_cases hp : s.placed
    · rw [step_seq hs hp] at h
      obtain ⟨u, e, hu⟩ := phaseStep_cases s.now s.begun
      rw [h] at e
      cases e
      exact .inl ⟨hs, hp, hu⟩
    · rw [step_misplaced hs hp] at h; cases h
  · exact .inr ⟨hs, h⟩

/-- What another agent's move can do (R191, R206, R208, R41, R43). -/
theorem agentStep_cases {m : Move} {s t : State} (hm : m ≠ .seq) (h : agentStep m s = .next t) :
    (∃ w, m = .send w ∧ t = s.hostSend w) ∨ (m = .receive ∧ t = s.hostReceive) ∨ (m = .closeTx ∧ t = s.hostCloseTx) ∨
    (m = .closeRx ∧ t = s.hostCloseRx) ∨ (∃ d, m = .tick d ∧ t = s.clockTick d) ∨ (∃ i, m = .otherOpen i ∧ t = s.otherOpen i) ∨
    (∃ i, m = .otherClose i ∧ t = s.otherClose i) := by
  cases m with
  | seq => exact absurd rfl hm
  | _ => cases h; simp

/-- What every other agent's move leaves alone, and how far it reaches into the queues, the endpoints, the clock and `DEV_OPEN` (R49). -/
theorem agentStep_frame {s t : State} {m : Move} (hm : m ≠ .seq) (h : agentStep m s = .next t) :
    ∃ cq rq tx rx now dev,
      t = { s with cq := cq, rq := rq, cqTxOpen := tx, rqRxOpen := rx, now := now, devOpen := dev } ∧
      s.now ≤ now ∧ (cq = s.cq ∨ ∃ w i, m = .send w ∧ s.params.format.decode w = .ok i ∧ s.cqTxOpen = true ∧ cq = s.cq ++ [i]) ∧
      (rq = s.rq ∨ ∃ x, m = .receive ∧ s.rqRxOpen = true ∧ s.rq = x :: rq) ∧ (s.cqTxOpen = false → tx = false) ∧
      (s.rqRxOpen = false → rx = false) ∧ (s.handle = .opened → s.devIndex ∈ s.devOpen → s.devIndex ∈ dev) := by
  obtain ⟨w, rfl, rfl⟩ | ⟨rfl, rfl⟩ | ⟨rfl, rfl⟩ | ⟨rfl, rfl⟩ | ⟨d, rfl, rfl⟩ | ⟨i, rfl, rfl⟩ | ⟨i, rfl, rfl⟩ :=
    agentStep_cases hm h
  · obtain e | ⟨i, hi, ho, e⟩ := s.hostSend_cases w <;> rw [e]
    · exact ⟨_, _, _, _, _, _, rfl, by simp, .inl rfl, .inl rfl, by simp, by simp, by simp⟩
    · exact ⟨_, _, _, _, _, _, rfl, by simp, .inr ⟨w, i, rfl, hi, ho, rfl⟩, .inl rfl, by simp, by simp, by simp⟩
  · unfold State.hostReceive
    split
    · rename_i ho
      refine ⟨_, s.rq.tail, _, _, _, _, rfl, by simp, .inl rfl, ?_, by simp, by simp, by simp⟩
      cases hr : s.rq with
      | nil => exact .inl rfl
      | cons x l => exact .inr ⟨x, rfl, ho, rfl⟩
    · exact ⟨_, _, _, _, _, _, rfl, by simp, .inl rfl, .inl rfl, by simp, by simp, by simp⟩
  · exact ⟨_, _, _, _, _, _, rfl, by simp, .inl rfl, .inl rfl, by simp, by simp, by simp⟩
  · exact ⟨_, _, _, _, _, _, rfl, by simp, .inl rfl, .inl rfl, by simp, by simp, by simp⟩
  · exact ⟨_, _, _, _, _, _, rfl, by simp, .inl rfl, .inl rfl, by simp, by simp, by simp⟩
  · exact ⟨_, _, _, _, _, _, rfl, by simp, .inl rfl, .inl rfl, by simp, by simp, fun _ h => mem_insertIndex.2 (.inr h)⟩
  · unfold State.otherClose
    split
    · exact ⟨_, _, _, _, _, _, rfl, by simp, .inl rfl, .inl rfl, by simp, by simp, by simp⟩
    · rename_i hh
      exact ⟨_, _, _, _, _, _, rfl, by simp, .inl rfl, .inl rfl, by simp, by simp,
        fun ho h => mem_removeIndex.2 ⟨h, fun e => hh ⟨ho, e.symm⟩⟩⟩

/-- The parameters and `TARGET_MS` are never written, and the clock never decreases (R14, R28, R40). -/
theorem step_params {s t : State} (h : step s = .next t) : t.params = s.params ∧ t.targetMs = s.targetMs ∧ s.now ≤ t.now := by
  obtain ⟨-, -, hu⟩ | ⟨hm, h⟩ := step_cases h
  · cases hu
    case command hu => cases hu <;> simp
    all_goals simp
  · obtain ⟨_, _, _, _, _, _, rfl, hn, -⟩ := agentStep_frame hm h
    exact ⟨rfl, rfl, hn⟩

/-- The time a sleep may end is not touched by the start of a step. -/
@[simp] theorem State.begun_wakeTime (s : State) (t d : Nat) : s.begun.wakeTime t d = s.wakeTime t d := rfl

/-- The probe always determines `TC` (R122). -/
theorem classify_ne_unknown (threshold elapsed : Nat) : classify threshold elapsed ≠ .unknown := by
  unfold classify; split <;> simp

/-- A trace is read event by event. -/
theorem traceModes_append (fp : Bool) (l : List TraceEntry) (e : TraceEntry) :
    traceModes fp (l ++ [e]) = (traceModes fp l).flatMap fun m => m.next fp e := by
  simp [traceModes]

/-- Where a trace may stand, one event on. -/
theorem mem_traceModes_append {fp : Bool} {l : List TraceEntry} {e : TraceEntry} {m : TraceMode} :
    m ∈ traceModes fp (l ++ [e]) ↔ ∃ k ∈ traceModes fp l, m ∈ k.next fp e := by
  rw [traceModes_append, List.mem_flatMap]

/-- The final frame of R177, whatever its answer, at every place where `X2_ZERO_WRITE` can stand. -/
theorem TraceMode.mem_next_zeroWrite {fp : Bool} {m : TraceMode} (hm : m ∈ Phase.x2ZeroWrite.modes fp) (t : Nat) {b : List Byte}
    {r : Answer} (hb : b = zeroFrame) (hr : r = .ok ∨ ∃ k, r = .err k) : .zeroed ∈ m.next fp ⟨t, .tWrite b, r⟩ := by
  have key : .zeroed ∈ TraceEntry.finalFrame ⟨t, .tWrite b, r⟩ b := by
    rw [TraceEntry.finalFrame, if_pos hb]
    obtain rfl | ⟨k, rfl⟩ := hr <;> exact List.mem_singleton.2 rfl
  cases fp
  · obtain rfl | rfl : m = .cycling ∨ m = .closing := by simpa [Phase.modes] using hm
    · exact key
    · exact key
  · obtain rfl : m = .finalReady := by simpa [Phase.modes] using hm
    exact key

/-- What reset answers, when it is not refused (R262). -/
theorem create_eq {c : Latches} {p : Params} {now : Nat} {dev : List Word} {s : State}
    (h : State.create c p now dev = .next s) : c.freq ≠ 0#32 ∧ s = State.fresh c p now dev := by
  unfold State.create at h
  split at h
  · cases h
  · rename_i hf; cases h; exact ⟨hf, rfl⟩

/-- A run of `k + 1` steps is a step and a run of `k` steps. -/
theorem runs_succ {k : Nat} {s u : State} (h : runs (k + 1) s = .next u) : ∃ t, step s = .next t ∧ runs k t = .next u := by
  have h := (Host.Core.run.eq_2 core s k).symm.trans h
  split at h
  · rename_i t ht; exact ⟨t, ht, h⟩
  · cases h
  · cases h

/-- A run of no steps stays where it is. -/
theorem runs_zero {s u : State} (h : runs 0 s = .next u) : u = s := by cases h; rfl

/-- What holds of a state and is kept by every step holds after every run. -/
theorem runs_induction {P : State → Prop} (hstep : ∀ s t, P s → step s = .next t → P t) {k : Nat} {s u : State}
    (hs : P s) (h : runs k s = .next u) : P u := by
  induction k generalizing s with
  | zero => exact runs_zero h ▸ hs
  | succ k ih => obtain ⟨t, h1, h2⟩ := runs_succ h; exact ih (hstep s t hs h1) h2

/-- A step followed by a run. -/
theorem runs_cons {k : Nat} {s t u : State} (h : step s = .next t) (h' : runs k t = .next u) : runs (k + 1) s = .next u := by
  have h : core.step s = .next t := h
  refine (Host.Core.run.eq_2 core s k).trans ?_
  rw [h]
  exact h'

end Sys2Proof.Machine
end

