-- ==== Sys2Proof/Tests/Slice0.lean ====
section
/-! SUPPORT. The model's own tests: expected values from 95_test_vectors.md (the row is named in each docstring), and for every statement that
has hypotheses a state and operands that meet them. -/

namespace Sys2Proof.Tests

open Sys2Proof.Machine

/-! ## Small states -/

/-- A descriptor. -/
def dev : Descriptor := ⟨[65], [66], 1, false, []⟩

/-- A step of 10 µs whose primitive answers `Ok`. -/
def okDraw : Draw := ⟨10, true, [dev], []⟩

/-- A step of 10 µs whose primitive answers `Err`. -/
def errDraw : Draw := ⟨10, false, [], []⟩

/-- `SEQ` at phase `p` with the handle of device 0 open, `FB = F{2:200}`, under `Adequate`, at `NOW = 1000`. -/
def at' (p : Phase) (d : Draw) : State :=
  { State.reset with
    ls := p.loopState, ph := p, handle := .opened, devOpen := [0#32], tc := .adequate, fb := [(2, 200#8)], now := 1000,
    sched := [.seq], draws := [d] }

/-- The same in a build with a final preamble. -/
def final (p : Phase) (d : Draw) : State := { at' p d with params := { Config.params with finalPreamble := true } }

/-- The same at `S1_DRAIN` with `c` and then `Stop` in `CQ` (V-CMD). -/
def draining (c : Instr) (d : Draw) : State := { at' .s1Drain d with cq := [c, .stop] }

/-- A test of the next state. -/
def after (o : Host.Outcome State Fault Refusal) (p : State → Bool) : Bool :=
  match o with
  | .next t => p t
  | .fault _ => false
  | .refused _ => false

/-! ## Well-formedness (R73) -/

theorem test_wf_refuses_wide_index : Instr.wf (.setChannel 65536 0#8) = false := by decide
theorem test_wf_accepts : [Instr.setChannel 65535 255#8, .stop, .reset, .clearFrame, .listDevices].all Instr.wf = true := by decide

/-! ## The identity (R2, R8, R9) -/

theorem test_identity : State.reset.identity.name = "open_dmx framer" ∧ State.reset.identity.fixed = ⟨513, 512, 0#8, 8, 1, 512, 4, 8, 5, 1, 3⟩ ∧
    State.reset.identity.taken.params = ⟨1000000, 3000000, 110, 16, 1000, ⟨32, 16⟩, false⟩ ∧ State.reset.identity.taken.freqDefault = 40000#32 :=
  ⟨rfl, rfl, rfl, rfl⟩
theorem test_fixed_counts : (∀ l : LoopState, l ∈ [.initializing, .running, .draining, .closed]) ∧
    (∀ c : TimingClass, c ∈ [.unknown, .adequate, .coarse]) := ⟨fun l => by cases l <;> decide, fun c => by cases c <;> decide⟩

/-! ## Decoding, each word written out from R72 and R75 (V-ENC) -/

theorem test_decode_setChannel_source : decode 0x00000205#32 = .ok (.setChannel 2 5#8) := by rfl
theorem test_decode_setChannel_bit16 : decode 0x00010001#32 = .ok (.setChannel 256 1#8) := by rfl
theorem test_decode_setChannel_last : decode 0x000200FF#32 = .ok (.setChannel 512 255#8) := by rfl
theorem test_decode_stop : decode (0b00000001#8 ++ 0#24) = .ok .stop := by rfl
theorem test_decode_reset : decode (0b00000010#8 ++ 0#24) = .ok .reset := by rfl
theorem test_decode_clearFrame : decode (0b00000011#8 ++ 0#24) = .ok .clearFrame := by rfl
theorem test_decode_listDevices : decode (0b00000100#8 ++ 0#24) = .ok .listDevices := by rfl
theorem test_decode_operand_bits : decode 0x01000001#32 = .error .operandBits ∧ decode 0x04800000#32 = .error .operandBits := ⟨rfl, rfl⟩
theorem test_decode_reserved_tag : decode 0x05000000#32 = .error .reservedTag ∧ decode 0x80000205#32 = .error .reservedTag := ⟨rfl, rfl⟩
theorem test_decode_other_widths : CmdFormat.decode ⟨21, 10⟩ 0x2C8 = .ok (.setChannel 2 200#8) ∧ CmdFormat.decode ⟨21, 10⟩ 0x40000 = .ok .stop ∧
    CmdFormat.decode ⟨21, 10⟩ 0x40001 = .error .operandBits ∧ CmdFormat.decode ⟨21, 10⟩ 0x140000 = .error .reservedTag ∧
    CmdFormat.decode ⟨21, 10⟩ 0x200000 = .error .tooWide := ⟨rfl, rfl, rfl, rfl, rfl⟩
theorem test_encode : [Instr.setChannel 2 200#8, .setChannel 512 255#8, .stop, .reset, .clearFrame, .listDevices].map encode =
    [0x000002C8#32, 0x000200FF#32, 0x01000000#32, 0x02000000#32, 0x03000000#32, 0x04000000#32] := by decide
theorem test_decodeTableWord : decodeTableWord 32 0x04000000 = some .listDevices ∧ decodeTableWord 32 0x05000000 = none := ⟨rfl, rfl⟩
theorem test_response_header : responseHeader (.deviceList [dev, dev]) = some 0x00000002#32 := by decide

/-! ## Text (R81) -/

theorem test_text : (Instr.setChannel 2 200#8).text = "SetChannel(2, 200)".toList := by decide
theorem test_parse : parseLine "SetChannel(2, 200)".toList = some (.message (.setChannel 2 200#8)) ∧
    parseLine "ListDevices".toList = some (.message .listDevices) ∧ parseLine "-- text".toList = some .comment ∧
    parseLine "@cycle".toList = some .cycle ∧ parseLine "SetChannel(2, 256)".toList = none ∧ parseLine "stop".toList = none := by decide

/-! ## The commands, one step each (V-CMD) -/

theorem test_setChannel_512 : after (step (draining (.setChannel 512 255#8) okDraw)) (fun t =>
    t.fb == [(2, 200#8), (512, 255#8)] && t.cq == [.stop] && t.ph == .s1Drain && t.err == 0#16) = true := by decide
theorem test_setChannel_0 : after (step (draining (.setChannel 0 7#8) okDraw)) (fun t =>
    t.fb == [(2, 200#8)] && t.err == 0x0010#16 && t.log == [⟨1010, .eBounds, .index 0⟩]) = true := by decide
theorem test_stop : after (step (draining .stop okDraw)) (fun t =>
    t.ls == .draining && t.ph == .d1Flush && t.cq == [.stop] && t.fb == [(2, 200#8)] && t.trace == []) = true := by decide
theorem test_reset_ok : after (step (draining .reset okDraw)) (fun t =>
    t.trace == [⟨1010, .tConfigure ⟨0, 0, 0⟩ 0#32 0#32, .ok⟩] && t.err == 0#16 && t.ph == .s1Drain) = true := by decide
theorem test_reset_err : after (step (draining .reset errDraw)) (fun t =>
    t.err == 0x0008#16 && t.log == [⟨1010, .eConfig, .reset⟩] && t.ls == .running && t.ph == .s1Drain) = true := by decide
theorem test_clearFrame : after (step (draining .clearFrame okDraw)) (fun t => t.fb == [] && t.ph == .s1Drain && t.trace == []) = true := by
  decide
theorem test_listDevices_ok : after (step (draining .listDevices okDraw)) (fun t =>
    t.rq == [.deviceList [dev]] && t.err == 0#16 && t.trace == [⟨1010, .tEnumerate, .okDevices [dev]⟩]) = true := by decide
theorem test_listDevices_two_errors : after (step { draining .listDevices errDraw with rqRxOpen := false }) (fun t =>
    t.rq == [] && t.err == 0x0600#16 && t.log == [⟨1010, .eEnum, .nothing⟩, ⟨1010, .eRspSend, .nothing⟩]) = true := by decide

/-! ## The phases (V-SEQ, V-PACE, V-PROBE, V-TGT, V-FB) -/

theorem test_open_excl : after (step { State.reset with sched := [.seq], devOpen := [0#32], draws := [okDraw] }) (fun t =>
    t.ls == .closed && t.ph == .x4Halt && t.err == 0x0004#16 && t.handle == .none && t.devOpen == [0#32]) = true := by decide
theorem test_open_ok : after (step { State.reset with sched := [.seq], draws := [⟨2000, true, [], []⟩] }) (fun t =>
    t.ph == .i2Settle && t.handle == .opened && t.t0 == 2000 && t.devOpen == [0#32] && t.trace == [⟨2000, .tOpen 0#32, .ok⟩]) = true := by decide
theorem test_settle : after (step { at' .i2Settle ⟨1000300, true, [], []⟩ with now := 2000 }) (fun t =>
    t.ph == .i3Probe && t.now == 1002300) = true := by decide
theorem test_break_failed : after (step (at' .s3Break errDraw)) (fun t => t.ph == .s8Pace && t.brk == false && t.err == 0x0020#16) = true := by
  decide
theorem test_hold_not_over : after (step (at' .s4BreakHold okDraw)) (fun t => t.ph == .s4BreakHold && t.wake == some 1110) = true := by decide
theorem test_hold_coarse : after (step { at' .s4BreakHold okDraw with tc := .coarse }) (fun t => t.ph == .s5Mab && t.wake == none) = true := by
  decide
theorem test_write : after (step (at' .s7Write errDraw)) (fun t => t.ph == .s8Pace && t.fb == [(2, 200#8)] && t.err == 0x0080#16 &&
    t.trace.all fun e => match e.op with | .tWrite b => b.length == 513 && b[2]? == some 200#8 && b[0]? == some 0#8 | _ => false) = true := by
  decide +kernel
theorem test_pace_adequate : after (step { at' .s8Pace ⟨0, true, [], []⟩ with cycleStart := 1000, now := 25999 }) (fun t =>
    t.ph == .s8Pace && t.wake == some 26999) = true := by decide
theorem test_pace_return : after (step { at' .s8Pace ⟨0, true, [], []⟩ with cycleStart := 1000, now := 26000, tc := .coarse }) (fun t =>
    t.ph == .s1Drain && t.wake == none) = true := by decide
theorem test_release_err : after (step (at' .x3Release errDraw)) (fun t =>
    t.ph == .x4Halt && t.handle == .none && t.devOpen == [] && t.err == 0x0800#16) = true := by decide
theorem test_final_preamble : after (step (final .x1Clear okDraw)) (fun t => t.ph == .xpBreak && t.fb == []) = true ∧
    after (step (final .xpBreak errDraw)) (fun t => t.ph == .x2ZeroWrite && t.err == 0x0020#16 && t.brk == false) = true ∧
    step (at' .xpBreak okDraw) = .fault .illegalPosition := ⟨by decide, by decide, rfl⟩
theorem test_final_preamble_trace : traceModes true [⟨1, .tOpen 0#32, .ok⟩, ⟨2, .tConfigure ⟨0, 0, 0⟩ 0#32 0#32, .ok⟩, ⟨3, .tSetBreak, .ok⟩,
    ⟨4, .tClearBreak, .ok⟩] = [.marking, .finalReady] := by decide
theorem test_classify : [1000000, 3000000, 3000001].map (classify 3000000) = [.adequate, .adequate, .coarse] := by decide
theorem test_target : [3, 128, 39215, 39216, 40816, 40817, 1999999].map targetMsOf = [333333, 7813, 26, 25, 25, 24, 1] := by decide
theorem test_fbSync : fbSync [(5, 50#8)] [0#8, 1#8, 2#8] = [(1, 1#8), (2, 2#8), (5, 50#8)] ∧ fbSync [] [1#8] = [(0, 1#8)] := by decide
theorem test_fbClear : fbClear [(0, 1#8), (1, 7#8), (512, 255#8)] = [] := by decide

/-! ## Placing a command -/

theorem test_withFetchWord : after (step ({ State.reset with draws := [okDraw] }.withFetchWord 32 0x000002C8)) (fun t =>
    t.fb == [(2, 200#8)] && t.cq == [] && t.ls == .running && t.ph == .s1Drain) = true := by decide

/-! ## Witnesses: a state and operands that meet the hypotheses of each statement, with each clause at a boundary of its range -/

/-- A buffer with one channel set. -/
def buffer : Memory := [(2, 200#8)]

/-- The trace of a cycle up to its deassert, 110 µs after the assert (P1). -/
def preamble : List TraceEntry :=
  [⟨100, .tOpen 0#32, .ok⟩, ⟨200, .tConfigure ⟨0, 0, 0⟩ 0#32 0#32, .ok⟩, ⟨300, .tSetBreak, .ok⟩, ⟨410, .tClearBreak, .ok⟩]

/-- A state before step 7, with the trace of a whole preamble. -/
def writing : State := { at' .s7Write okDraw with trace := preamble }

/-- A state in which the open has failed (P6 case a). -/
def failed : State :=
  { State.reset with
    ls := .closed, ph := .x4Halt, err := 0x0002#16, trace := [⟨2000, .tOpen 0#32, .err .openFailed⟩], now := 2000,
    sched := [.seq] }

theorem test_inv_writing : writing.Inv :=
  ⟨by decide, by decide, by decide, by decide, by decide, by decide, by decide, by decide, by decide, by decide, by decide, by decide,
    by decide, ⟨.marking, by decide, by decide⟩⟩

theorem test_inv_failed : failed.Inv :=
  ⟨by decide, by decide, by decide, by decide, by decide, by decide, by decide, by decide, by decide, by decide, by decide, by decide,
    by decide, ⟨.ended, by decide, by decide⟩⟩

theorem test_hyp_DecodeEncodeRoundTrip :
    (∀ v : Byte, Instr.wf (.setChannel 65535 v) = true) ∧ decode 0x00FFFFFF#32 = .ok (.setChannel 65535 255#8) ∧
    decode 0x04000000#32 = .ok .listDevices ∧ CmdFormat.wf ⟨32, 16⟩ = true ∧ CmdFormat.wf ⟨21, 10⟩ = true ∧
    (∀ v : Byte, Instr.wfIn ⟨21, 10⟩ (.setChannel 1023 v) = true) ∧ CmdFormat.decode ⟨21, 10⟩ 0x100000 = .ok .listDevices :=
  ⟨fun _ => rfl, rfl, rfl, rfl, rfl, fun _ => rfl, rfl⟩

theorem test_hyp_DecodeIsTheOpcodeTable :
    0x00FFFFFF#32 &&& 0xFF000000#32 = 0x00000000#32 ∧ (0x05#8 ≤ (0x05000000#32).extractLsb' 24 8) ∧
    0x01#8 ≤ (0x04000001#32).extractLsb' 24 8 ∧ (0x04000001#32).extractLsb' 24 8 ≤ 0x04#8 ∧ (0x04000001#32).extractLsb' 0 24 ≠ 0#24 := by decide

theorem test_hyp_ResponseHeaderCounts :
    (List.replicate 65535 dev).length ≤ 65535 ∧ 65535 < (List.replicate 65536 dev).length ∧ decodeHeader 0x0000FFFF#32 = some 65535 :=
  ⟨by rw [List.length_replicate], by rw [List.length_replicate]; omega, by decide⟩

theorem test_hyp_StepRunsTheDecodedCommand :
    ({ State.reset with sched := [.send 0x01000000] } : State).nextMove = .send 0x01000000 ∧
    ({ State.reset with sched := [.send 0x01000000] } : State).cqTxOpen = true ∧ State.reset.params.format.decode 0x01000000 = .ok .stop ∧
    (draining .reset okDraw).seqTurn ∧ (draining .reset okDraw).atPhase .s1Drain ∧ (draining .reset okDraw).cq = [.reset, .stop] ∧
    decodeTableWord 32 0x02000000 = some .reset := by decide

theorem test_hyp_FbSetWritesOneSlot :
    buffer.wf = true ∧ (1 ≤ 1 ∧ 1 ≤ 512) ∧ (1 ≤ 512 ∧ 512 ≤ 512) ∧ ¬(1 ≤ 0 ∧ 0 ≤ 512) ∧ ¬(1 ≤ 513 ∧ 513 ≤ 512) ∧ 200#8 = buffer.read 2 := by decide

theorem test_hyp_AccessorLaws : buffer.wf = true ∧ (1 ≤ 1 ∧ 1 ≤ 512) ∧ (1 ≤ 512 ∧ 512 ≤ 512) ∧ 1 ≠ 512 ∧ (513 = 0 ∨ 513 ≤ 513) := by decide

theorem test_hyp_FbGetAndFbClear : Memory.wf [] = true ∧ (∀ k, Memory.read [] k = 0#8) ∧ ¬(1 ≤ 0 ∧ 0 ≤ 512) :=
  ⟨rfl, fun _ => rfl, by decide⟩

theorem test_hyp_FbSyncCopiesAPrefix :
    buffer.wf = true ∧ 0 < [7#8].length ∧ min [7#8].length 513 ≤ 1 ∧ 512 < (List.replicate 600 7#8).length :=
  ⟨by decide, by decide, by decide, by rw [List.length_replicate]; omega⟩

theorem test_hyp_CanonicalBufferIsUnique : buffer.wf = true ∧ ∀ k, k < 513 → buffer.read k = buffer.read k := ⟨by decide, fun _ _ => rfl⟩

theorem test_hyp_FrameImageIsEverySlotInOrder : 0 < buffer.frame.length ∧ 512 < buffer.frame.length := by
  rw [Memory.frame, Memory.slots_length]; decide

theorem test_hyp_TargetIsRoundedHalfUp : (1 ≤ 1 ∧ 1 < 2 ^ 32) ∧ (1 ≤ 4294967295 ∧ 4294967295 < 2 ^ 32) ∧
    Config.latches.freq ≠ 0#32 ∧ ({ Config.latches with freq := 0#32 } : Latches).freq = 0#32 := by decide

theorem test_hyp_TargetTableAndMonotone : (1 ≤ 1 ∧ 1 ≤ 4294967295) ∧ ({ Config.latches with freq := 0#32 } : Latches).freq = 0#32 := by decide

theorem test_hyp_ResetRefusesOnlyZeroFrequency :
    ({ Config.latches with freq := 0#32 } : Latches).freq = 0#32 ∧ Config.latches.freq ≠ 0#32 ∧ Config.latches.devIndex ∉ [1#32] ∧
    ({ State.fresh Config.latches Config.params 0 [1#32] with sched := .seq :: [.seq], draws := [errDraw] } : State).nextDraw.answersOk = false := by decide

theorem test_hyp_ResetLeavesTheValuesOfTheTable : ∃ s, State.create Config.latches Config.params 7 [1#32] = .next s := ⟨_, rfl⟩

theorem test_hyp_SetChannelResult : (1 ≤ 1 ∧ 1 ≤ 512) ∧ (1 ≤ 512 ∧ 512 ≤ 512) ∧ ¬(1 ≤ 0 ∧ 0 ≤ 512) ∧ ¬(1 ≤ 513 ∧ 513 ≤ 512) ∧ buffer.wf = true := by
  decide

theorem test_hyp_ResetResult : ∃ s s' : State, s.cur.answersOk = true ∧ s'.cur.answersOk = false :=
  ⟨{ State.reset with cur := okDraw }, { State.reset with cur := errDraw }, rfl, rfl⟩

theorem test_hyp_ListDevicesResult : ∀ ok rx : Bool, ∃ s : State, s.cur.answersOk = ok ∧ s.rqRxOpen = rx :=
  fun ok rx => ⟨{ State.reset with cur := { okDraw with answersOk := ok }, rqRxOpen := rx }, rfl, rfl⟩

theorem test_hyp_SetChannelFrame :
    (∃ t, exec (.setChannel 512 1#8) State.reset = .next t) ∧ (∃ t, exec (.setChannel 513 1#8) State.reset = .next t) ∧
    validChannel (operandSlot 512) = true ∧ validChannel (operandSlot 513) = false := ⟨⟨_, rfl⟩, ⟨_, rfl⟩, by decide, by decide⟩

theorem test_hyp_OtherCommandsFrame :
    (∃ t, exec .stop State.reset = .next t) ∧ (∃ t, exec .reset State.reset = .next t) ∧ (∃ t, exec .listDevices State.reset = .next t) ∧
    (∃ t, exec .clearFrame (at' .s1Drain okDraw) = .next t) ∧ (at' .s1Drain okDraw).fb.wf = true :=
  ⟨⟨_, rfl⟩, ⟨_, rfl⟩, ⟨_, rfl⟩, ⟨_, rfl⟩, by decide⟩

theorem test_hyp_ResponseSend : State.reset.rqRxOpen = true ∧ State.reset.hostCloseRx.rqRxOpen = false := by decide

theorem test_hyp_RaiseRecordsAndNothingElse : 0 < 16 ∧ 15 < 16 := by decide

theorem test_hyp_ExclusiveOpen :
    State.reset.devIndex ∉ State.reset.devOpen ∧ ({ State.reset with cur := okDraw } : State).tOpen.1 = .ok () ∧
    ({ State.reset with cur := errDraw } : State).tOpen.1 = .error .openFailed ∧
    ({ State.reset with devOpen := [0#32] } : State).tOpen.1 = .error .alreadyOpen := ⟨by decide, rfl, rfl, rfl⟩

theorem test_hyp_HostSteps : ∃ s s' : State,
    s.nextMove = .send 0x01000000 ∧ s.params.format.decode 0x01000000 = .ok .stop ∧ s.cqTxOpen = true ∧
    s.params.format.decode 0x05000000 = .error .reservedTag ∧ s.params.format.decode (2 ^ 32) = .error .tooWide ∧
    s'.nextMove = .receive ∧ s'.rq = [.deviceList [dev]] ∧ s'.rqRxOpen = true :=
  ⟨{ State.reset with sched := [.send 0x01000000] }, { State.reset with sched := [.receive], rq := [.deviceList [dev]] },
    rfl, rfl, rfl, rfl, rfl, rfl, rfl, rfl⟩

theorem test_hyp_HostSteps_closed : ∃ s s' t t' : State,
    s.nextMove = .send 0x01000000 ∧ s.cqTxOpen = false ∧ s'.nextMove = .receive ∧ s'.rqRxOpen = false ∧ t.nextMove = .closeTx ∧
    t'.nextMove = .closeRx :=
  ⟨{ State.reset with sched := [.send 0x01000000], cqTxOpen := false }, { State.reset with sched := [.receive], rqRxOpen := false },
    { State.reset with sched := [.closeTx] }, { State.reset with sched := [.closeRx] }, rfl, rfl, rfl, rfl, rfl, rfl⟩

theorem test_hyp_ClockAndOtherInstanceMoves : ∃ s s' s'' : State,
    s.nextMove = .tick 0 ∧ s'.nextMove = .otherOpen 1#32 ∧ s''.nextMove = .otherClose 0#32 ∧ s''.handle = .opened ∧ 0#32 = s''.devIndex ∧
    0#32 ∈ s''.devOpen :=
  ⟨{ State.reset with sched := [.tick 0] }, { State.reset with sched := [.otherOpen 1#32] },
    { at' .s8Pace okDraw with sched := [.otherClose 0#32] }, rfl, rfl, rfl, rfl, rfl, by decide⟩

/-- `SEQ` can be on its turn at every phase, with either answer drawn; the phase statements' other hypotheses are met beside it. -/
theorem test_hyp_phases : ∀ (p : Phase) (d : Draw), (at' p d).seqTurn ∧ (at' p d).atPhase p ∧ (at' p d).begun.cur = d ∧ (at' p d).wake = none :=
  fun _ _ => ⟨rfl, ⟨rfl, rfl⟩, rfl, rfl⟩

theorem test_hyp_OpenPhase :
    (at' .i1Open okDraw).devIndex ∈ (at' .i1Open okDraw).devOpen ∧
    ∀ d, ∃ s : State, s.seqTurn ∧ s.atPhase .i1Open ∧ s.devIndex ∉ s.devOpen ∧ s.begun.cur = d :=
  ⟨by decide, fun d => ⟨{ State.reset with sched := [.seq], draws := [d] }, rfl, ⟨rfl, rfl⟩, List.not_mem_nil, rfl⟩⟩

theorem test_hyp_SleepPhases :
    (at' .s4BreakHold okDraw).tc = .adequate ∧ ({ at' .s4BreakHold okDraw with tc := .coarse } : State).tc ≠ .adequate ∧
    (at' .s4BreakHold ⟨110, true, [], []⟩).begun.now = 1000 + 110 ∧ (at' .s4BreakHold ⟨109, true, [], []⟩).begun.now < 1000 + 110 ∧
    (at' .s6MabHold ⟨16, true, [], []⟩).begun.now = 1000 + 16 ∧ (at' .i2Settle ⟨1000000, true, [], []⟩).begun.now = 1000 + 1000000 := by decide

theorem test_hyp_SleepPhases_final : ∀ p d, (final p d).params.finalPreamble = true ∧ (final p d).seqTurn ∧ (final p d).atPhase p ∧
    (final p d).begun.cur = d ∧ (final p d).wake = none ∧ (final p d).tc = .adequate :=
  fun _ _ => ⟨rfl, rfl, ⟨rfl, rfl⟩, rfl, rfl, rfl⟩

theorem test_hyp_ProbePhase : (at' .i3Probe okDraw).seqTurn ∧ (at' .i3Probe okDraw).atPhase .i3Probe := by decide

theorem test_hyp_ConfigPhase : (at' .i4Config okDraw).begun.cur.answersOk = true ∧ (at' .i4Config errDraw).begun.cur.answersOk = false := by decide

theorem test_hyp_DrainAndStampPhases :
    (at' .s1Drain okDraw).cq = [] ∧ (draining .stop okDraw).cq = [.stop, .stop] ∧ (draining .reset okDraw).cq = [.reset, .stop] ∧
    Instr.reset ≠ .stop := by decide

theorem test_hyp_BreakPhases : (at' .s3Break okDraw).begun.cur.answersOk = true ∧ (at' .s5Mab errDraw).begun.cur.answersOk = false := by decide

theorem test_hyp_WritePhase : (at' .s7Write okDraw).begun.cur.answersOk = true ∧ (at' .s7Write okDraw).begun.brk = false ∧
    (at' .s7Write errDraw).begun.cur.answersOk = false := by decide

theorem test_hyp_PacePhase :
    (let s : State := { at' .s8Pace okDraw with wake := some 1011 }
     s.wake = some 1011 ∧ s.begun.now < 1011) ∧
    (let s : State := { at' .s8Pace okDraw with wake := some 1010, cycleStart := 1000 }
     s.wake = some 1010 ∧ 1010 ≤ s.begun.now ∧ s.begun.now - s.begun.cycleStart < s.begun.targetMs * 1000 ∧ s.begun.tc = .adequate) ∧
    (let s : State := { at' .s8Pace okDraw with now := 26000 - 10, cycleStart := 1000, tc := .coarse }
     s.begun.targetMs * 1000 ≤ s.begun.now - s.begun.cycleStart ∧ s.begun.tc ≠ .adequate) := by decide

theorem test_hyp_ShutdownPhases : (at' .x1Clear okDraw).params.finalPreamble = false ∧ (at' .x3Release okDraw).begun.cur.answersOk = true ∧
    (at' .x2ZeroWrite okDraw).begun.cur.answersOk = true ∧ (at' .x2ZeroWrite okDraw).begun.brk = false ∧
    (at' .x2ZeroWrite errDraw).begun.cur.answersOk = false := by decide

theorem test_hyp_LatchesAndTargetNeverChange :
    (∃ s, State.create Config.latches Config.params 0 [] = .next s) ∧ ∃ t, step (draining .reset okDraw) = .next t := ⟨⟨_, rfl⟩, ⟨_, rfl⟩⟩

theorem test_hyp_PositionFollowsTheTable : (at' .s3Break errDraw).placed ∧ (final .xpBreak errDraw).placed ∧ ∃ t, step (at' .s3Break errDraw) = .next t :=
  ⟨by decide, by decide, ⟨_, rfl⟩⟩

theorem test_hyp_RecordsOnlyGrow : ∃ t, step (draining .listDevices errDraw) = .next t := ⟨_, rfl⟩

theorem test_hyp_PrimitivesIssuedByTheTable : ∃ t e, step writing = .next t ∧ t.trace = writing.trace ++ [e] ∧ writing.Inv ∧
    (∀ i, e.op ≠ .tOpen i) ∧ e.op ≠ .tEnumerate :=
  ⟨_, _, rfl, rfl, test_inv_writing, (fun _ => Prim.noConfusion), Prim.noConfusion⟩

theorem test_hyp_OtherAgentsKeepOut :
    ¬({ State.reset with sched := [.closeTx] } : State).seqTurn ∧ (∃ t, step { State.reset with sched := [.closeTx] } = .next t) ∧
    (at' .s8Pace okDraw).seqTurn ∧ ({ at' .s8Pace okDraw with cqTxOpen := false, rqRxOpen := false } : State).cqTxOpen = false :=
  ⟨by decide, ⟨_, rfl⟩, by decide, rfl⟩

theorem test_hyp_CommandQueueIsFifo :
    after (step { State.reset with sched := [.send 0x01000000] }) (fun t => t.cq == [.stop]) = true ∧
    after (step (draining .reset okDraw)) (fun t => t.cq == [.stop]) = true := by decide

theorem test_hyp_ResponseQueueIsFifo :
    after (step { State.reset with sched := [.receive], rq := [.deviceList [dev], .deviceList []] }) (fun t => t.rq == [.deviceList []]) = true ∧
    after (step (draining .listDevices okDraw)) (fun t => t.rq == [.deviceList [dev]]) = true := by decide

theorem test_hyp_BufferWrittenOnlyByDrainAndClear : ∃ t, step (draining .clearFrame okDraw) = .next t ∧ t.fb ≠ (draining .clearFrame okDraw).fb :=
  ⟨_, rfl, by decide⟩

theorem test_hyp_DiagnosticsInfluenceNothing : ∃ t, step (draining .listDevices errDraw) = .next t := ⟨_, rfl⟩

theorem test_hyp_ResetEstablishesTheInvariant : ∃ s, State.create { Config.latches with freq := 1#32 } Config.params 5 [0#32] = .next s := ⟨_, rfl⟩

theorem test_hyp_StepKeepsTheInvariant : writing.Inv ∧ ∃ t, step writing = .next t := ⟨test_inv_writing, _, rfl⟩

theorem test_hyp_EveryFrameHasStartCodeZero : (∃ t, exec .clearFrame writing = .next t) ∧ writing.Inv ∧ (∃ t, step writing = .next t) ∧
    ∀ e ∈ writing.trace, ∀ b, e.op = .tWrite b → b.length = 513 ∧ b.head? = some 0#8 := by
  refine ⟨⟨_, rfl⟩, test_inv_writing, ⟨_, rfl⟩, ?_⟩
  intro e he b hb
  simp only [writing, preamble, List.mem_cons, List.not_mem_nil, or_false] at he
  rcases he with rfl | rfl | rfl | rfl <;> cases hb

theorem test_hyp_PreambleKeepsItsSpacing : writing.Inv ∧ writing.preambleSpaced ∧ writing.tc = .adequate ∧ ∃ t, step writing = .next t := by
  refine ⟨test_inv_writing, fun _ => ⟨?_, (by intro h; cases h), (by intro h; cases h), (by intro h; cases h), fun _ => ?_,
    (by intro h; cases h), (by intro h; cases h), (by intro h; cases h), (by intro h; cases h)⟩, rfl, ⟨_, rfl⟩⟩
  · refine ⟨fun h => (by cases h), fun h => (by cases h), fun h => (by cases h), fun h => (by cases h), ?_⟩
    exact ⟨fun _ _ _ => by decide, fun h => (by cases h), trivial⟩
  · exact ⟨⟨410, .tClearBreak, .ok⟩, rfl, rfl, rfl, by decide⟩

theorem test_hyp_TimingClassIsImmutable : writing.Inv ∧ writing.tc ≠ .unknown ∧ ∃ t, runs 1 writing = .next t :=
  ⟨test_inv_writing, by decide, _, rfl⟩

theorem test_hyp_SleepNeverEndsEarly : ∃ k : Phase → Draw → State, (∀ p d, (k p d).placed ∧ (k p d).wake = none ∧ (k p d).tc = .adequate) ∧
    after (runs 1 (k .i2Settle ⟨1000000, true, [], []⟩)) (fun t => t.ph == .i3Probe) = true ∧
    after (runs 1 (k .s4BreakHold ⟨110, true, [], []⟩)) (fun t => t.ph == .s5Mab) = true ∧
    after (runs 1 (k .s6MabHold ⟨16, true, [], []⟩)) (fun t => t.ph == .s7Write) = true ∧
    after (runs 1 (k .xpBreakHold ⟨110, true, [], []⟩)) (fun t => t.ph == .xpMab) = true ∧
    after (runs 1 (k .xpMabHold ⟨16, true, [], []⟩)) (fun t => t.ph == .x2ZeroWrite) = true :=
  ⟨final, fun _ _ => ⟨⟨rfl, fun _ => rfl⟩, rfl, rfl⟩, by decide, by decide, by decide, by decide, by decide⟩

theorem test_hyp_CyclesArePaced : (at' .s3Break okDraw).atPhase .s3Break ∧ (at' .s3Break okDraw).cycleStart ≤ (at' .s3Break okDraw).now ∧
    ∃ t, runs 1 (at' .s3Break okDraw) = .next t := ⟨by decide, by decide, _, rfl⟩

theorem test_hyp_DrainExecutesInOrder : ∃ s : State, s.atPhase .s1Drain ∧ s.seqTurns 2 ∧ s.fb.wf = true ∧
    s.cq = [.setChannel 2 5#8, .setChannel 2 200#8] ++ [.stop] ∧ .stop ∉ [Instr.setChannel 2 5#8, .setChannel 2 200#8] :=
  ⟨{ at' .s1Drain okDraw with sched := [.seq, .seq], cq := [.setChannel 2 5#8, .setChannel 2 200#8, .stop] },
    by decide, rfl, by decide, rfl, by decide⟩

theorem test_hyp_DrainExecutesInOrder_flood : ∃ s : State, s.atPhase .s1Drain ∧ s.cqTxOpen = true ∧
    s.params.format.decode 0x000002C8 = .ok (.setChannel 2 200#8) ∧ s.cq = [.setChannel 2 200#8] ∧
    s.sched.take (2 * 2) = (List.replicate 2 [Move.send 0x000002C8, .seq]).flatten ∧
    after (runs 4 s) (fun t => t.ph == .s1Drain && t.cq == [.setChannel 2 200#8] && t.trace == []) = true :=
  ⟨{ at' .s1Drain okDraw with
      sched := [.send 0x000002C8, .seq, .send 0x000002C8, .seq], cq := [.setChannel 2 200#8], draws := [okDraw, okDraw] },
    by decide, rfl, rfl, rfl, rfl, by decide⟩

theorem test_hyp_CycleEmitsPreambleThenFrame :
    ∃ s : State, s.atPhase .s2Stamp ∧ s.seqTurns 6 ∧ s.wake = none ∧ 6 ≤ s.draws.length ∧
      ∀ d ∈ s.draws.take 6, d.answersOk = true ∧ s.params.breakHoldUs ≤ d.elapsed ∧ s.params.mabHoldUs ≤ d.elapsed :=
  ⟨{ at' .s2Stamp okDraw with sched := List.replicate 6 .seq, draws := List.replicate 6 ⟨110, true, [], []⟩ }, by decide, rfl, rfl, by decide, by decide⟩

theorem test_hyp_ShutdownCompletes : ∃ s : State, s.atPhase .d1Flush ∧ s.params.finalPreamble = false ∧ s.seqTurns 4 :=
  ⟨{ at' .d1Flush errDraw with sched := List.replicate 4 .seq }, by decide, rfl, rfl⟩

theorem test_hyp_ShutdownCompletes_final : ∃ s : State, s.atPhase .d1Flush ∧ s.params.finalPreamble = true ∧ s.seqTurns 8 ∧ s.wake = none ∧
    8 ≤ s.draws.length ∧ ∀ d ∈ s.draws.take 8, d.answersOk = true ∧ s.params.breakHoldUs ≤ d.elapsed ∧ s.params.mabHoldUs ≤ d.elapsed :=
  ⟨{ final .d1Flush errDraw with sched := List.replicate 8 .seq, draws := List.replicate 8 ⟨110, true, [], []⟩ },
    by decide, rfl, rfl, rfl, by decide, by decide⟩

theorem test_hyp_NothingButZeroFrameAfterStop : (at' .d1Flush errDraw).atPhase .d1Flush ∧ (at' .d1Flush errDraw).params.finalPreamble = false ∧
    ∃ t, runs 1 (at' .d1Flush errDraw) = .next t := ⟨by decide, rfl, _, rfl⟩

theorem test_hyp_HaltIsFinal : failed.halted ∧ ∃ t, runs 1 failed = .next t := ⟨by decide, _, rfl⟩

theorem test_hyp_HaltedTraceEndsWithZeroFrameAndRelease : failed.Inv ∧ failed.halted := ⟨test_inv_failed, by decide⟩

theorem test_hyp_EveryFrameHasAPreamble : ∃ t e, writing.Inv ∧ writing.ph = .s7Write ∧ step writing = .next t ∧ t.trace = writing.trace ++ [e] :=
  ⟨_, _, test_inv_writing, rfl, rfl, rfl⟩

theorem test_hyp_TraceStaysInTheLanguage : ∃ s t, State.create Config.latches Config.params 0 [] = .next s ∧
    runs 1 { s with sched := [.send 0x01000000], draws := [okDraw] } = .next t := ⟨_, _, rfl, rfl⟩

end Sys2Proof.Tests
end

section
/-! PROOFS. Family 10_state: the exclusive open of a device (R43, R93), and the latches and `TARGET_MS`, which reset writes and no step does
(R28, R32). -/

namespace Sys2Proof.Machine

/-! ## The exclusive open -/

/-- `T_OPEN` answers `AlreadyOpen` exactly for an index in `DEV_OPEN` (R93). -/
theorem State.tOpen_alreadyOpen_iff (s : State) : s.tOpen.1 = .error .alreadyOpen ↔ s.devIndex ∈ s.devOpen := by
  obtain ⟨hm, e⟩ | ⟨hm, -, e⟩ | ⟨hm, -, e⟩ := s.tOpen_cases <;> simp [e, hm]

/-- For any other index the draw alone decides (R93). -/
theorem State.tOpen_answer_of_notMem {s : State} (h : s.devIndex ∉ s.devOpen) : s.tOpen.1 = s.drawn .openFailed := by
  obtain ⟨hm, -⟩ | ⟨-, hd, e⟩ | ⟨-, hd, e⟩ := s.tOpen_cases
  · exact absurd hm h
  · simp [e, State.drawn, hd]
  · simp [e, State.drawn, hd]

/-- On `Ok`, `DEV_OPEN` gains the index of the open and no other (R43). -/
theorem State.mem_devOpen_tOpen_ok {s : State} (h : s.tOpen.1 = .ok ()) (j : Word) :
    j ∈ s.tOpen.2.devOpen ↔ j = s.devIndex ∨ j ∈ s.devOpen := by
  obtain ⟨-, e⟩ | ⟨-, -, e⟩ | ⟨-, -, e⟩ := s.tOpen_cases
  · rw [e] at h; cases h
  · rw [e]; exact mem_insertIndex
  · rw [e] at h; cases h

/-- On `Err`, `DEV_OPEN` is as it was (R43). -/
theorem State.devOpen_tOpen_error {s : State} {k : TpError} (h : s.tOpen.1 = .error k) : s.tOpen.2.devOpen = s.devOpen := by
  obtain ⟨-, e⟩ | ⟨-, -, e⟩ | ⟨-, -, e⟩ := s.tOpen_cases
  · rw [e]; rfl
  · rw [e] at h; cases h
  · rw [e]; rfl

/-- Whatever `T_CLOSE` answers, `DEV_OPEN` loses the index of the handle and no other (R43, R102). -/
theorem State.mem_devOpen_tClose (s : State) (j : Word) : j ∈ s.tClose.2.devOpen ↔ j ∈ s.devOpen ∧ j ≠ s.devIndex := by
  obtain ⟨-, e⟩ | ⟨-, e⟩ := s.tClose_cases <;> rw [e] <;> exact mem_removeIndex

/-- Settles O25: the answer of `T_OPEN` by membership and draw, then its effect and that of `T_CLOSE` on `DEV_OPEN`. -/
theorem exclusiveOpen : Obligations.ExclusiveOpen := by
  intro s
  refine ⟨s.tOpen_alreadyOpen_iff, fun hm hd => ?_, fun hm hd => ?_, fun j h => State.mem_devOpen_tOpen_ok h j, fun j k h => ?_,
    s.mem_devOpen_tClose⟩
  · rw [State.tOpen_answer_of_notMem hm, State.drawn, hd]; rfl
  · rw [State.tOpen_answer_of_notMem hm, State.drawn, hd]; rfl
  · rw [State.devOpen_tOpen_error h]

/-! ## The latches and `TARGET_MS` -/

/-- The five latches of R32, as `State.create` was given them. -/
def State.latches (s : State) : Latches :=
  { devIndex := s.devIndex, freq := s.freq, rdTimeoutMs := s.rdTimeoutMs, wrTimeoutMs := s.wrTimeoutMs, lineCfg := s.lineCfg }

/-- The identity of R2 is a function of the parameters and the latches. -/
theorem State.identity_eq (s : State) : s.identity = Config.identity s.params s.latches := rfl

/-- No command writes a latch (R32). -/
theorem ExecResult.latches_eq {s t : State} {i : Instr} (h : ExecResult s i t) : t.latches = s.latches := by
  cases h <;> rfl

/-- No phase writes a latch (R32). -/
theorem PhaseResult.latches_eq {t : Nat} {s u : State} (h : PhaseResult t s u) : u.latches = s.latches := by
  cases h
  case command hc => exact hc.latches_eq
  all_goals rfl

/-- No step writes a latch, whichever agent makes it (R32, R49). -/
theorem step_latches {s t : State} (h : step s = .next t) : t.latches = s.latches := by
  obtain ⟨-, -, hu⟩ | ⟨hm, ha⟩ := step_cases h
  · exact hu.latches_eq
  · obtain ⟨_, _, _, _, _, _, rfl, -⟩ := agentStep_frame hm ha
    rfl

/-- The target frame duration is at least one millisecond, however high the frequency (R131). -/
theorem one_le_targetMsOf (freq : Nat) : 1 ≤ targetMsOf freq := le_max_left 1 _

/-- Settles O37: reset computes `TARGET_MS` from `FREQ`, and a step keeps the parameters, the latches and it. -/
theorem latchesAndTargetNeverChange : Obligations.LatchesAndTargetNeverChange := by
  refine ⟨fun c p now dev s hs => ?_, rfl, fun s t h => ?_⟩
  · obtain ⟨-, rfl⟩ := create_eq hs
    exact ⟨rfl, one_le_targetMsOf _⟩
  · obtain ⟨hparams, htarget, -⟩ := step_params h
    have hlatches := step_latches h
    have hidentity : t.identity = s.identity := by rw [State.identity_eq, State.identity_eq, hparams, hlatches]
    obtain ⟨hdev, hfreq, hrd, hwr, hline⟩ := Latches.mk.inj hlatches
    exact ⟨htarget, hdev, hfreq, hrd, hwr, hline, hparams, hidentity⟩

end Sys2Proof.Machine
end

section
/-! PROOFS. Family 30_encoding: the decoder of 32-bit words as the table of R75 and R76, by the masks on a word's fields. -/

namespace Sys2Proof

/-! ## The fields of a word as numbers (R72) -/

/-- The tag field is the word without its 24 operand bits. -/
theorem tagBits_toNat (w : Word) : (w.extractLsb' 24 8).toNat = w.toNat / 16777216 := by
  have := w.isLt
  rw [BitVec.extractLsb'_toNat, Nat.shiftRight_eq_div_pow]
  omega

/-- A non-zero operand bit, as a number. -/
theorem operandBits_ne_zero_iff (w : Word) : w.extractLsb' 0 24 ≠ 0#24 ↔ w.toNat % 16777216 ≠ 0 := by
  rw [Ne, ← BitVec.toNat_inj, BitVec.extractLsb'_toNat, Nat.shiftRight_zero]
  rfl

/-- Masking the 24 operand bits away is shifting them out and back. -/
theorem tagMask_toNat (w : Word) : (w &&& 0xFF000000#32).toNat = w.toNat / 16777216 * 16777216 := by
  have := w.isLt
  have hmask : w >>> 24 <<< 24 = w &&& 0xFF000000#32 := BitVec.shiftLeft_ushiftRight
  rw [← hmask, BitVec.toNat_shiftLeft, BitVec.toNat_ushiftRight, Nat.shiftRight_eq_div_pow, Nat.shiftLeft_eq]
  omega

/-- The mask of the `SetChannel` row of R75 finds tag 0. -/
theorem tagMask_eq_zero_iff (w : Word) : w &&& 0xFF000000#32 = 0x00000000#32 ↔ w.toNat / 16777216 = 0 := by
  rw [← BitVec.toNat_inj, tagMask_toNat, BitVec.toNat_ofNat]
  omega

/-! ## What decodes to a command -/

/-- `SetChannel(c, v)` encodes as `c * 256 + v` (R75), `c` by its low 16 bits. -/
theorem encode_setChannel_toNat (c : Nat) (v : Byte) : (encode (.setChannel c v)).toNat = c % 65536 * 256 + v.toNat := by
  have h := format_word_toNat (tag := 0) v (by decide) (Nat.mod_lt c (by decide : 0 < 65536))
  rwa [Nat.zero_mul, Nat.zero_add] at h

/-- A word with tag 0 is decoded to `SetChannel` of its index and value fields (R75). -/
theorem decode_of_tag_zero {w : Word} (h : w.toNat / 16777216 = 0) :
    decode w = .ok (.setChannel (w.toNat / 256 % 65536) (BitVec.ofNat 8 (w.toNat % 256))) := by
  have hc : w.toNat / 256 % 65536 = w.toNat / 256 := by omega
  have hv : BitVec.ofNat 8 (w.toNat % 256) = BitVec.ofNat 8 w.toNat := BitVec.eq_of_toNat_eq (Nat.mod_mod _ _)
  rw [hc, hv]
  obtain ⟨-, e⟩ | ⟨rfl, -⟩ | ⟨rfl, -⟩ | ⟨rfl, -⟩ | ⟨rfl, -⟩ | ⟨ht, -⟩ | ⟨ht, -⟩ := decode_cases w
  · exact e
  iterate 4 exact absurd h (by decide)
  all_goals omega

/-- The word a command is decoded from is the command's own encoding. -/
theorem encode_of_decode {w : Word} {i : Instr} (h : decode w = .ok i) : encode i = w := by
  obtain ⟨ht, e⟩ | ⟨rfl, e⟩ | ⟨rfl, e⟩ | ⟨rfl, e⟩ | ⟨rfl, e⟩ | ⟨-, -, -, e⟩ | ⟨-, e⟩ := decode_cases w <;> rw [e] at h <;> cases h
  · refine BitVec.eq_of_toNat_eq ?_
    rw [encode_setChannel_toNat, BitVec.toNat_ofNat]
    omega
  all_goals rfl

/-- A command that its encoding gives back is decoded from that word alone. -/
theorem decode_eq_ok_iff {i : Instr} (hi : decode (encode i) = .ok i) (w : Word) : decode w = .ok i ↔ w = encode i :=
  ⟨fun h => (encode_of_decode h).symm, fun h => h ▸ hi⟩

/-- The words decoded to a `SetChannel` are those with tag 0 (R75). -/
theorem decode_setChannel_iff (w : Word) : (∃ c v, decode w = .ok (.setChannel c v)) ↔ w.toNat / 16777216 = 0 := by
  refine ⟨fun ⟨c, v, h⟩ => ?_, fun h => ⟨_, _, decode_of_tag_zero h⟩⟩
  have := v.isLt
  rw [← encode_of_decode h, encode_setChannel_toNat]
  omega

/-! ## What is invalid, and under which name -/

/-- A word is a command, or has one of the two faults of R75 and R76, by its tag and its operand bits alone. -/
theorem decode_cases_of_fields (w : Word) :
    ((w.toNat / 16777216 = 0 ∨ w.toNat / 16777216 ≤ 4 ∧ w.toNat % 16777216 = 0) ∧ ∃ i, decode w = .ok i) ∨
    ((1 ≤ w.toNat / 16777216 ∧ w.toNat / 16777216 ≤ 4 ∧ w.toNat % 16777216 ≠ 0) ∧ decode w = .error .operandBits) ∨
    (5 ≤ w.toNat / 16777216 ∧ decode w = .error .reservedTag) := by
  obtain ⟨ht, e⟩ | ⟨rfl, e⟩ | ⟨rfl, e⟩ | ⟨rfl, e⟩ | ⟨rfl, e⟩ | ⟨h1, h4, h0, e⟩ | ⟨ht, e⟩ := decode_cases w
  · exact .inl ⟨.inl ht, _, e⟩
  iterate 4 exact .inl ⟨.inr (by decide), _, e⟩
  · exact .inr (.inl ⟨⟨h1, h4, h0⟩, e⟩)
  · exact .inr (.inr ⟨ht, e⟩)

/-- The words refused for their tag are those with a reserved one (R75). -/
theorem decode_reservedTag_iff (w : Word) : decode w = .error .reservedTag ↔ 5 ≤ w.toNat / 16777216 := by
  obtain ⟨ht, i, e⟩ | ⟨ht, e⟩ | ⟨ht, e⟩ := decode_cases_of_fields w <;> rw [e]
  · exact iff_of_false nofun (by omega)
  · exact iff_of_false nofun (by omega)
  · exact iff_of_true rfl ht

/-- The words refused for their operand bits are those with tag 1 to 4 and a non-zero operand bit (R76). -/
theorem decode_operandBits_iff (w : Word) :
    decode w = .error .operandBits ↔ 1 ≤ w.toNat / 16777216 ∧ w.toNat / 16777216 ≤ 4 ∧ w.toNat % 16777216 ≠ 0 := by
  obtain ⟨ht, i, e⟩ | ⟨ht, e⟩ | ⟨ht, e⟩ := decode_cases_of_fields w <;> rw [e]
  · exact iff_of_false nofun (by omega)
  · exact iff_of_true rfl ht
  · exact iff_of_false nofun (by omega)

/-- Settles O2: each row of the table of R75 and R76, by the word's tag and operand bits as numbers. -/
theorem decodeIsTheOpcodeTable : Obligations.DecodeIsTheOpcodeTable := by
  refine ⟨fun c v hc => ?_, fun w => ?_⟩
  · rw [encode_setChannel_toNat, Nat.mod_eq_of_lt hc]
  · simp only [tagMask_eq_zero_iff, decode_reservedTag_iff, decode_operandBits_iff, BitVec.le_def, tagBits_toNat, operandBits_ne_zero_iff]
    exact ⟨decode_of_tag_zero, decode_eq_ok_iff (i := .stop) rfl w, decode_eq_ok_iff (i := .reset) rfl w,
      decode_eq_ok_iff (i := .clearFrame) rfl w, decode_eq_ok_iff (i := .listDevices) rfl w, decode_setChannel_iff w, .rfl, .rfl⟩

end Sys2Proof
end

section
/-! PROOFS. Family 41_frame_buffer: the four accessors, by what a buffer reads in each slot and by the one canonical buffer with
those reads. -/

namespace Sys2Proof.Machine

/-! ## A canonical buffer is the list of its reads -/

/-- The canonical form of a buffer with a first cell. -/
theorem Memory.wfFrom_cons_iff {lo a : Nat} {b : Byte} {m : Memory} :
    Memory.wfFrom lo ((a, b) :: m) = true ↔ lo ≤ a ∧ a < Config.nslots ∧ b ≠ Memory.blank ∧ m.wfFrom (a + 1) = true := by
  simp only [Memory.wfFrom, Bool.and_eq_true, decide_eq_true_eq, and_assoc]

/-- The slot of a buffer's first cell reads that cell's byte. -/
theorem Memory.read_cons_same (a : Nat) (b : Byte) (m : Memory) : Memory.read ((a, b) :: m) a = b := if_pos rfl

/-- A slot other than the first cell's is read from the rest. -/
theorem Memory.read_cons_other {a k : Nat} (b : Byte) (m : Memory) (h : k ≠ a) : Memory.read ((a, b) :: m) k = m.read k := if_neg h

/-- A canonical buffer with the same read as another at that one's first cell does not start above it: below its start it reads blank. -/
theorem Memory.head_le_of_read_eq {lo lo' a a' : Nat} {b b' : Byte} {m m' : Memory} (hm : Memory.wfFrom lo ((a, b) :: m) = true)
    (hm' : Memory.wfFrom lo' ((a', b') :: m') = true) (h : Memory.read ((a, b) :: m) a = Memory.read ((a', b') :: m') a) : a' ≤ a := by
  obtain ⟨-, -, hb, -⟩ := Memory.wfFrom_cons_iff.1 hm
  obtain ⟨-, hn, hb', ht⟩ := Memory.wfFrom_cons_iff.1 hm'
  by_contra hlt
  have hblank := Memory.read_below (Memory.wfFrom_cons_iff.2 ⟨le_rfl, hn, hb', ht⟩) (Nat.lt_of_not_le hlt)
  exact hb (by rw [← hblank, ← h, Memory.read_cons_same])

/-- A canonical buffer with a cell does not read blank everywhere. -/
theorem Memory.exists_read_ne_blank {lo : Nat} {c : Host.Cell} {m : Memory} (hm : Memory.wfFrom lo (c :: m) = true) :
    ∃ k, Memory.read (c :: m) k ≠ Memory.blank := by
  obtain ⟨-, -, hb, -⟩ := Memory.wfFrom_cons_iff.1 hm
  exact ⟨c.1, by rwa [Memory.read_cons_same]⟩

/-- Canonical buffers with the same reads are the same list. -/
theorem Memory.eq_of_read_eq {m m' : Memory} {lo lo' : Nat} (hm : m.wfFrom lo = true) (hm' : m'.wfFrom lo' = true)
    (h : ∀ k, m.read k = m'.read k) : m = m' := by
  induction m generalizing m' lo lo' with
  | nil =>
    cases m' with
    | nil => rfl
    | cons c' m' =>
      obtain ⟨k, hk⟩ := Memory.exists_read_ne_blank hm'
      exact absurd (h k).symm hk
  | cons c m ih =>
    cases m' with
    | nil =>
      obtain ⟨k, hk⟩ := Memory.exists_read_ne_blank hm
      exact absurd (h k) hk
    | cons c' m' =>
      obtain ⟨a, b⟩ := c
      obtain ⟨a', b'⟩ := c'
      obtain rfl : a = a' := le_antisymm (Memory.head_le_of_read_eq hm' hm (h a').symm) (Memory.head_le_of_read_eq hm hm' (h a))
      obtain rfl : b = b' := by rw [← Memory.read_cons_same a b m, h, Memory.read_cons_same]
      obtain ⟨-, -, -, ht⟩ := Memory.wfFrom_cons_iff.1 hm
      obtain ⟨-, -, -, ht'⟩ := Memory.wfFrom_cons_iff.1 hm'
      refine congrArg _ (ih ht ht' fun k => ?_)
      by_cases hk : k = a
      · rw [Memory.read_below ht (by omega), Memory.read_below ht' (by omega)]
      · rw [← Memory.read_cons_other b m hk, h, Memory.read_cons_other b m' hk]

/-- Writing to a slot of a canonical buffer what it holds changes nothing. -/
theorem Memory.write_read {m : Memory} {a : Nat} (hm : m.wf = true) (ha : a < Config.nslots) : m.write a (m.read a) = m := by
  refine Memory.eq_of_read_eq (Memory.wf_write _ hm ha) hm fun k => ?_
  by_cases hk : k = a
  · rw [hk, Memory.read_write_same a _ hm]
  · exact Memory.read_write_other m _ hk

/-! ## What a buffer reads after consecutive writes -/

/-- Writing consecutive slots leaves every slot outside them alone. -/
theorem Memory.read_putSlots_other (m : Memory) {a k : Nat} {vs : List Byte} (h : k < a ∨ a + vs.length ≤ k) :
    (m.putSlots a vs).read k = m.read k := by
  induction vs generalizing m a with
  | nil => rfl
  | cons v vs ih =>
    rw [List.length_cons] at h
    rw [Memory.putSlots, ih _ (by omega), Memory.read_write_other m v (by omega)]

/-- After writing consecutive slots of a canonical buffer, the `i`-th of them holds the `i`-th byte. -/
theorem Memory.read_putSlots {m : Memory} {a i : Nat} {vs : List Byte} (hm : m.wf = true) (ha : a + vs.length ≤ Config.nslots)
    (hi : i < vs.length) : (m.putSlots a vs).read (a + i) = vs[i] := by
  induction vs generalizing m a i with
  | nil => cases hi
  | cons v vs ih =>
    rw [List.length_cons] at ha hi
    rw [Memory.putSlots]
    cases i with
    | zero =>
      rw [Memory.read_putSlots_other _ (by omega)]
      exact Memory.read_write_same a v hm
    | succ i =>
      have hslot : a + (i + 1) = a + 1 + i := by omega
      rw [hslot]
      exact ih (Memory.wf_write v hm (by omega)) (by omega) (by omega)

/-! ## The accessors -/

/-- Everything `FB_GET` can answer (R113). -/
theorem fbGet_cases (m : Memory) (c : Nat) :
    ((1 ≤ c ∧ c ≤ 512) ∧ fbGet m c = .ok (m.read c)) ∨ (¬(1 ≤ c ∧ c ≤ 512) ∧ fbGet m c = .error .bounds) := by
  rw [← validChannel_iff, fbGet]
  by_cases h : validChannel c = true
  · exact .inl ⟨h, if_pos h⟩
  · exact .inr ⟨h, if_neg h⟩

/-- `FB_GET` of a valid channel answers its slot (R113). -/
theorem fbGet_of_valid (m : Memory) {c : Nat} (hc : 1 ≤ c ∧ c ≤ 512) : fbGet m c = .ok (m.read c) :=
  ((fbGet_cases m c).resolve_right fun h => h.1 hc).2

/-- After `FB_CLEAR` every slot reads 0 (R114). -/
theorem read_fbClear (m : Memory) (k : Nat) : (fbClear m).read k = 0#8 := rfl

/-- Settles O6: `FB_SET` is one write of a slot inside the index space, or nothing. -/
theorem fbSetWritesOneSlot : Obligations.FbSetWritesOneSlot := by
  intro m c v hm
  obtain ⟨hc, e⟩ | ⟨hc, e⟩ := fbSet_cases m c v
  · have hslot : c < Config.nslots := Nat.lt_succ_of_le hc.2
    refine ⟨fun _ => ?_, fun h => absurd hc h⟩
    rw [e]
    exact ⟨rfl, Memory.read_write_same c v hm, fun d hd => Memory.read_write_other m v hd, Memory.wf_write v hm hslot,
      fun hv => hv ▸ Memory.write_read hm hslot⟩
  · exact ⟨fun h => absurd h hc, fun _ => e⟩

/-- Settles O8: `FB_GET` by its two answers; a cleared buffer is the canonical one that reads 0 everywhere. -/
theorem fbGetAndFbClear : Obligations.FbGetAndFbClear := by
  refine ⟨fun m c => ⟨fbGet_of_valid m, fun hc => ((fbGet_cases m c).resolve_left fun h => hc h.1).2⟩,
    fun c h1 h512 => ?_, read_fbClear, fbClear_wf, fun m hm h => ?_⟩
  · exact fbGet_of_valid _ ⟨h1, h512⟩
  · exact Memory.eq_of_read_eq (fbClear_wf m) hm fun k => (h k).symm

/-- Settles O9: `FB_SYNC` writes the consecutive slots from 0, one for each of the first 513 bytes. -/
theorem fbSyncCopiesAPrefix : Obligations.FbSyncCopiesAPrefix := by
  intro m raw hm
  have hlen : (raw.take Config.nslots).length = min Config.nslots raw.length := List.length_take
  refine ⟨fbSync_wf raw hm, fun k hk hk512 => ?_, fun k hk => ?_⟩
  · have hslot : k < (raw.take Config.nslots).length := hlen ▸ lt_min (Nat.lt_succ_of_le hk512) hk
    have hread := Memory.read_putSlots (a := 0) hm (by omega) hslot
    rwa [Nat.zero_add, List.getElem_take] at hread
  · refine Memory.read_putSlots_other m (.inr ?_)
    rw [Nat.zero_add, hlen, min_comm]
    exact hk

end Sys2Proof.Machine
end

section
/-! PROOFS. Family 43_frame_pacer: the target frame duration as a rounded quotient, its table and its monotonicity (R131, R133). -/

namespace Sys2Proof.Machine

/-! ## `raw` as a rounded quotient -/

/-- Half up: `1 000 000 / FREQ + 1/2` is one fraction, the one whose integer quotient `raw` is (R131). -/
theorem million_div_add_half {f : Nat} (hf : 1 ≤ f) :
    (1000000 : ℚ) / f + 1 / 2 = ((2000000 + f : Nat) : ℚ) / ((2 * f : Nat) : ℚ) := by
  have hne : (f : ℚ) ≠ 0 := Nat.cast_ne_zero.2 (by omega)
  push_cast
  field_simp
  ring

/-- `raw` is `1 000 000 / FREQ` rounded half up in exact rationals (R131). -/
theorem targetRaw_eq_floor {f : Nat} (hf : 1 ≤ f) : targetRaw f = ⌊(1000000 : ℚ) / f + 1 / 2⌋₊ := by
  rw [million_div_add_half hf, Nat.floor_div_eq_div, targetRaw]

/-- `TARGET_MS` is that number, and at least 1 (R131). -/
theorem targetMsOf_eq_max_floor {f : Nat} (hf : 1 ≤ f) : targetMsOf f = max 1 ⌊(1000000 : ℚ) / f + 1 / 2⌋₊ := by
  rw [targetMsOf, targetRaw_eq_floor hf]

/-- `raw` never grows with `FREQ` (R133): the exact quotient does not, and rounding keeps the order. -/
theorem targetRaw_le_of_le {f g : Nat} (hf : 1 ≤ f) (h : f ≤ g) : targetRaw g ≤ targetRaw f := by
  have hpos : (0 : ℚ) < f := Nat.cast_pos.2 hf
  rw [targetRaw_eq_floor hf, targetRaw_eq_floor (hf.trans h)]
  exact Nat.floor_mono (by gcongr)

/-- `TARGET_MS` never grows with `FREQ` (R133). -/
theorem targetMsOf_le_of_le {f g : Nat} (hf : 1 ≤ f) (h : f ≤ g) : targetMsOf g ≤ targetMsOf f :=
  max_le_max_left 1 (targetRaw_le_of_le hf h)

/-! ## What reset makes of `FREQ` -/

section
variable {c : Latches} (p : Params) (now : Nat) (dev : List Word)

/-- Reset is refused when `FREQ = 0` (R262). -/
theorem State.create_of_freq_zero (h : c.freq = 0#32) : State.create c p now dev = .refused .freqZero := if_pos h

/-- With any other `FREQ` reset answers the state of R48 (R260). -/
theorem State.create_of_freq_ne_zero (h : c.freq ≠ 0#32) : State.create c p now dev = .next (State.fresh c p now dev) := if_neg h

end

/-- Settles O12: `raw` is the floor of the exact quotient plus one half, and reset stores what `targetMsOf` makes of it. -/
theorem targetIsRoundedHalfUp : Obligations.TargetIsRoundedHalfUp := by
  refine ⟨fun f hf _ => ⟨targetRaw_eq_floor hf, targetMsOf_eq_max_floor hf⟩,
    fun c p now dev => ⟨State.create_of_freq_zero p now dev, fun hc => ?_⟩⟩
  have hfreq : 1 ≤ c.freq.toNat := Nat.pos_of_ne_zero fun h0 => hc (BitVec.eq_of_toNat_eq h0)
  exact ⟨State.fresh c p now dev, State.create_of_freq_ne_zero p now dev hc, targetMsOf_eq_max_floor hfreq⟩

/-- Settles O13: the two columns of R133's table are computed, and the order comes from that of the exact quotients. -/
theorem targetTableAndMonotone : Obligations.TargetTableAndMonotone := by
  refine ⟨?table, ?rawTable, fun f g hf h => targetMsOf_le_of_le hf h, fun f hf => ?bound,
    fun c p now dev hc => State.create_of_freq_zero p now dev hc⟩
  case table => decide
  case rawTable => decide
  case bound => omega

end Sys2Proof.Machine
end

section
/-! PROOFS. Family 44_transmission_loop: one step of `SEQ` in the phases that do not wait (R152, R154, R155, R160 to R163, R165, R167,
R172 to R175), each from what its primitive can answer. -/

namespace Sys2Proof.Machine

/-! ## The step of a phase -/

section
variable {s : State}

/-- On its turn at a phase of R24, `SEQ` makes the step that phase names. -/
theorem step_of_phase {p : Phase} {r : Host.Outcome State Fault Refusal} (ht : s.seqTurn) (h : s.atPhase p)
    (hp : p.ofFinalPreamble = false) (hr : s.begun.ph = p → phaseStep s.now s.begun = r) : step s = r :=
  (step_seq ht (State.placed_of_atPhase h hp)).trans (hr h.2)

/-- A step whose outcome the answer decides answers the state of that answer (R91). -/
theorem step_of_answer {b : Bool} {v x y : State} (hs : step s = .next v) (hc : (b = true ∧ v = x) ∨ (b = false ∧ v = y)) :
    (b = true → step s = .next x) ∧ (b = false → step s = .next y) := by
  obtain ⟨rfl, rfl⟩ | ⟨rfl, rfl⟩ := hc <;> simp [hs]

end

/-! ## What each phase can do -/

section
variable {s : State}

/-- `I1_OPEN` for a device that is open already (R152, R93). -/
theorem phaseOpen_of_mem (h : s.devIndex ∈ s.devOpen) : phaseOpen s =
    (State.raise { s.record s.openArgs (.err .alreadyOpen) with line := .unknown } .eExcl (.device s.devIndex)).goto
      .closed .x4Halt := by
  unfold phaseOpen
  obtain ⟨-, e⟩ | ⟨hm, -⟩ | ⟨hm, -⟩ := s.tOpen_cases
  · rw [e]; rfl
  · exact absurd h hm
  · exact absurd h hm

/-- Everything `I1_OPEN` can do for a device that is not (R152). -/
theorem phaseOpen_cases_of_notMem (h : s.devIndex ∉ s.devOpen) :
    (s.cur.answersOk = true ∧ phaseOpen s = { s.record s.openArgs .ok with
      devOpen := insertIndex s.devIndex s.devOpen, line := .unknown, handle := .opened, t0 := s.now, ph := .i2Settle }) ∨
    (s.cur.answersOk = false ∧ phaseOpen s =
      (State.raise { s.record s.openArgs (.err .openFailed) with line := .unknown } .eOpen (.device s.devIndex)).goto
        .closed .x4Halt) := by
  unfold phaseOpen
  obtain ⟨hm, -⟩ | ⟨-, hd, e⟩ | ⟨-, hd, e⟩ := s.tOpen_cases
  · exact absurd hm h
  · rw [e]; exact .inl ⟨hd, rfl⟩
  · rw [e]; exact .inr ⟨hd, rfl⟩

/-- A drain that sees the queue empty ends (R160). -/
theorem phaseDrain_nil (h : s.cq = []) : phaseDrain s = .next { s with ph := .s2Stamp } := by
  unfold phaseDrain; rw [h]

/-- A drain pops the head of the queue and executes it (R160). -/
theorem phaseDrain_cons {c : Instr} {rest : List Instr} (h : s.cq = c :: rest) :
    phaseDrain s = exec c { s with cq := rest } := by
  unfold phaseDrain; rw [h]

/-- Without a final preamble `X1_CLEAR` blanks the buffer and the final frame is next (R173, R174). -/
theorem phaseClear_of_not_finalPreamble (h : s.params.finalPreamble = false) :
    phaseClear s = { s with fb := [], ph := .x2ZeroWrite } := by
  unfold phaseClear; rw [h]; rfl

end

section
variable (s : State)

/-- Everything `I4_CONFIG` can do (R155). -/
theorem phaseConfig_cases :
    (s.cur.answersOk = true ∧
      phaseConfig s = State.goto { s.record s.configureArgs .ok with line := .unknown } .running .s1Drain) ∨
    (s.cur.answersOk = false ∧ phaseConfig s =
      (State.raise { s.record s.configureArgs (.err .configFailed) with line := .unknown } .eConfig .initial).goto
        .closed .x1Clear) := by
  unfold phaseConfig
  obtain ⟨hd, e⟩ | ⟨hd, e⟩ := s.tConfigure_cases <;> rw [e]
  · exact .inl ⟨hd, rfl⟩
  · exact .inr ⟨hd, rfl⟩

/-- Everything `S7_WRITE` can do (R167). -/
theorem phaseWrite_cases :
    (s.cur.answersOk = true ∧ phaseWrite s = { s.record (.tWrite s.fb.frame) .ok with line := .mark, ph := .s8Pace }) ∨
    (s.cur.answersOk = false ∧ phaseWrite s =
      State.skipTo { s.record (.tWrite s.fb.frame) (.err .writeFailed) with line := .unknown } .s8Pace .eWrite .cycle) := by
  unfold phaseWrite
  obtain ⟨hd, e⟩ | ⟨hd, e⟩ := s.tWrite_cases <;> rw [e]
  · exact .inl ⟨hd, rfl⟩
  · exact .inr ⟨hd, rfl⟩

/-- Everything `X2_ZERO_WRITE` can do (R174). -/
theorem phaseZeroWrite_cases :
    (s.cur.answersOk = true ∧
      phaseZeroWrite s = { s.record (.tWrite s.fb.frame) .ok with line := .mark, ph := .x3Release }) ∨
    (s.cur.answersOk = false ∧ phaseZeroWrite s =
      State.skipTo { s.record (.tWrite s.fb.frame) (.err .writeFailed) with line := .unknown } .x3Release .eWrite .final) := by
  unfold phaseZeroWrite
  obtain ⟨hd, e⟩ | ⟨hd, e⟩ := s.tWrite_cases <;> rw [e]
  · exact .inl ⟨hd, rfl⟩
  · exact .inr ⟨hd, rfl⟩

/-- Everything `X3_RELEASE` can do (R175). -/
theorem phaseRelease_cases :
    (s.cur.answersOk = true ∧ phaseRelease s = { s.record .tClose .ok with
      devOpen := removeIndex s.devIndex s.devOpen, line := .unknown, handle := .none, ph := .x4Halt }) ∨
    (s.cur.answersOk = false ∧ phaseRelease s = { State.raise { s.record .tClose (.err .closeFailed) with
      devOpen := removeIndex s.devIndex s.devOpen, line := .unknown } .eClose .nothing with handle := .none, ph := .x4Halt }) := by
  unfold phaseRelease
  obtain ⟨hd, e⟩ | ⟨hd, e⟩ := s.tClose_cases <;> rw [e]
  · exact .inl ⟨hd, rfl⟩
  · exact .inr ⟨hd, rfl⟩

end

/-- The frame image is the read of every slot in order (R51). -/
theorem Memory.frame_eq_map_read (m : Memory) : m.frame = (List.range 513).map m.read := by
  simp [Memory.frame, Memory.slots, Config.nslots]

/-! ## The phases of `Initializing` -/

/-- Settles O28: an index in `DEV_OPEN` has one answer, for any other the draw decides. -/
theorem openPhase : Obligations.OpenPhase := by
  rintro s _ rfl ht hp
  have hstep : step s = .next (phaseOpen s.begun) := step_of_phase ht hp rfl phaseStep_i1Open
  have hdrawn (hm : s.devIndex ∉ s.devOpen) := step_of_answer hstep (phaseOpen_cases_of_notMem (s := s.begun) hm)
  have hexcl (hm : s.devIndex ∈ s.devOpen) := hstep.trans (congrArg _ (phaseOpen_of_mem (s := s.begun) hm))
  exact ⟨hexcl, fun hm => (hdrawn hm).2, fun hm => (hdrawn hm).1⟩

/-- Settles O30: the phase applies `classify`, whose comparison is the strict one of R122. -/
theorem probePhase : Obligations.ProbePhase := by
  rintro s _ rfl ht hp
  exact step_of_phase ht hp rfl phaseStep_i3Probe

/-- Settles O31, by the two answers of `T_CONFIGURE`. -/
theorem configPhase : Obligations.ConfigPhase := by
  rintro s _ rfl ht hp
  exact step_of_answer (step_of_phase ht hp rfl phaseStep_i4Config) (phaseConfig_cases s.begun)

/-! ## The phases of `Running` -/

/-- Settles O32: the drain by the head of the queue; that a command other than `Stop` keeps the queue and the position is
`ExecResult.keeps`. -/
theorem drainAndStampPhases : Obligations.DrainAndStampPhases := by
  rintro s _ rfl ht
  have hdrain (hp : s.atPhase .s1Drain) : step s = phaseDrain s.begun := step_of_phase ht hp rfl phaseStep_s1Drain
  refine ⟨fun hp hq => ?empty, fun rest hp hq => ?stop, fun c rest hp hq hc => ?command,
    fun hp => step_of_phase ht hp rfl phaseStep_s2Stamp⟩
  case empty => exact (hdrain hp).trans (phaseDrain_nil (s := s.begun) hq)
  case stop => exact (hdrain hp).trans (phaseDrain_cons (s := s.begun) hq)
  case command =>
    obtain ⟨t, hexec, hres⟩ := exec_cases c { s.begun with cq := rest }
    obtain ⟨hcq, -, -, -, -, -, -, -, -, -, hpos⟩ := hres.keeps
    obtain ⟨hls, hph⟩ := hpos hc
    exact ⟨t, (hdrain hp).trans ((phaseDrain_cons (s := s.begun) hq).trans hexec), hexec, hcq, hls.trans hp.1, hph.trans hp.2⟩

/-- Settles O33, by the two answers of each break primitive. -/
theorem breakPhases : Obligations.BreakPhases := by
  rintro s _ rfl ht
  have hbreak (hp : s.atPhase .s3Break) :=
    step_of_answer (step_of_phase ht hp rfl phaseStep_s3Break) (s.begun.assertThen_cases .s4BreakHold .s8Pace)
  have hmab (hp : s.atPhase .s5Mab) :=
    step_of_answer (step_of_phase ht hp rfl phaseStep_s5Mab) (s.begun.deassertThen_cases .s6MabHold .s8Pace)
  exact ⟨fun hp => (hbreak hp).1, fun hp => (hbreak hp).2, fun hp => (hmab hp).1, fun hp => (hmab hp).2⟩

/-- Settles O34, by the two answers of `T_WRITE`, its argument being the frame image slot by slot. -/
theorem writePhase : Obligations.WritePhase := by
  rintro s _ rfl ht hp
  rw [← Memory.frame_eq_map_read]
  obtain ⟨hok, herr⟩ := step_of_answer (step_of_phase ht hp rfl phaseStep_s7Write) (phaseWrite_cases s.begun)
  exact ⟨fun hd => ⟨.mark, fun _ => rfl, hok hd⟩, herr⟩

/-! ## The shutdown -/

/-- Settles O36: the two phases without a primitive, then the two answers of `T_WRITE` and of `T_CLOSE`. -/
theorem shutdownPhases : Obligations.ShutdownPhases := by
  rintro s _ rfl ht
  have hwrite (hp : s.atPhase .x2ZeroWrite) :=
    step_of_answer (step_of_phase ht hp rfl phaseStep_x2ZeroWrite) (phaseZeroWrite_cases s.begun)
  have hclose (hp : s.atPhase .x3Release) :=
    step_of_answer (step_of_phase ht hp rfl phaseStep_x3Release) (phaseRelease_cases s.begun)
  refine ⟨fun hp => step_of_phase ht hp rfl phaseStep_d1Flush, fun hp hf => ?clear,
    fun hp hd => ⟨.mark, fun _ => rfl, (hwrite hp).1 hd⟩, fun hp => (hwrite hp).2,
    fun hp hd => ⟨.unknown, (hclose hp).1 hd⟩, fun hp hd => ⟨.unknown, (hclose hp).2 hd⟩⟩
  case clear =>
    exact (step_of_phase ht hp rfl phaseStep_x1Clear).trans (congrArg _ (phaseClear_of_not_finalPreamble (s := s.begun) hf))

end Sys2Proof.Machine
end

section
/-! PROOFS. Family 45_commands: what each of the five commands answers on every state (R200 to R204), and the send on the response path
(R207). -/

namespace Sys2Proof.Machine

/-! ## The results of a command -/

section
variable {s t u : State} {i : Instr}

/-- A command has one result: where R200 to R204 give it several, the conditions of any two exclude each other. -/
theorem ExecResult.unique (ht : ExecResult s i t) (hu : ExecResult s i u) : t = u := by
  cases ht with
  | set c v hc =>
    cases hu with
    | set => rfl
    | bounds _ _ hn => exact absurd hc hn
  | bounds c v hn =>
    cases hu with
    | set _ _ hc => exact absurd hc hn
    | bounds => rfl
  | stop => cases hu; rfl
  | clear => cases hu; rfl
  | resetOk hd | resetErr hd => cases hu <;> simp_all
  | listSent hd hr | listDropped hd hr | emptySent hd hr | emptyDropped hd hr => cases hu <;> simp_all

/-- What a command can do under the conditions of the state, it does. -/
theorem ExecResult.exec_eq (h : ExecResult s i t) : exec i s = .next t := by
  obtain ⟨u, e, hu⟩ := exec_cases i s
  rw [e, hu.unique h]

end

/-! ## Two errors in one step -/

/-- Two errors raised in one step set both bits and append both events, in the order raised (R222). -/
theorem State.raise_raise (s : State) (e e' : ErrCode) (info info' : ErrInfo) :
    (s.raise e info).raise e' info' =
      { s with err := s.err ||| (e.mask ||| e'.mask), log := s.log ++ [⟨s.now, e, info⟩, ⟨s.now, e', info'⟩] } := by
  simp [State.raise, errSet, BitVec.or_assoc]

/-! ## The commands -/

/-- Settles O16: the two results of `SetChannel`, and the read of the slot it wrote. -/
theorem setChannelResult : Obligations.SetChannelResult := by
  intro s c v
  exact ⟨fun hc => ⟨(ExecResult.set c v hc).exec_eq, Memory.read_write_same c v⟩, fun hn => (ExecResult.bounds c v hn).exec_eq⟩

/-- Settles O17: `Stop` has one result. -/
theorem stopResult : Obligations.StopResult := fun _ => ExecResult.stop.exec_eq

/-- Settles O18, by the two answers of `T_CONFIGURE`. -/
theorem resetResult : Obligations.ResetResult := by
  intro s
  exact ⟨fun hd => (ExecResult.resetOk hd).exec_eq, fun hd => (ExecResult.resetErr hd).exec_eq⟩

/-- Settles O19: `ClearFrame` has one result, and its buffer is the empty list of cells. -/
theorem clearFrameResult : Obligations.ClearFrameResult := by
  intro s
  exact ⟨_, ExecResult.clear.exec_eq, rfl, read_fbClear s.fb, fbClear_wf s.fb⟩

/-- Settles O20, by the answer of `T_ENUMERATE` and the state of the receiver; `E_ENUM` and `E_RSP_SEND` can be raised together. -/
theorem listDevicesResult : Obligations.ListDevicesResult := by
  intro s
  refine ⟨fun hd hr => (ExecResult.listSent hd hr).exec_eq, fun hd hr => (ExecResult.listDropped hd hr).exec_eq,
    fun hd hr => (ExecResult.emptySent hd hr).exec_eq, fun hd hr => ?bothErrors⟩
  case bothErrors =>
    have hexec := (ExecResult.emptyDropped hd hr).exec_eq
    rwa [State.raise_raise] at hexec

/-! ## The response path -/

/-- Settles O24, by the state of the receiver. -/
theorem responseSend : Obligations.ResponseSend := by
  intro s m
  obtain ⟨hr, e⟩ | ⟨hr, e⟩ := s.rspSend_cases m
  · exact ⟨fun _ => e, fun h => absurd (hr.symm.trans h) (by decide)⟩
  · exact ⟨fun h => absurd (hr.symm.trans h) (by decide), fun _ => e⟩

end Sys2Proof.Machine
end

section
/-! PROOFS. Family 60_exceptions: what raising an error records (R221, R222). -/

namespace Sys2Proof.Machine

/-! ## The bits of ERR -/

/-- The mask of an error is the one bit its code numbers (R221). -/
theorem ErrCode.mask_eq_twoPow (e : ErrCode) : e.mask = BitVec.twoPow 16 e.code := rfl

/-- Recording an error sets the bit of its code and keeps every other (R222). -/
theorem getLsbD_errSet (err : BitVec 16) (e : ErrCode) {k : Nat} (hk : k < 16) :
    (errSet err e).getLsbD k = (err.getLsbD k || decide (k = e.code)) := by
  have hmask : e.mask.getLsbD k = decide (k = e.code) := by
    simp [e.mask_eq_twoPow, hk]
  rw [errSet, BitVec.getLsbD_or, hmask]

/-! ## Raising an error -/

/-- Settles O23: `ERR` by its bits, every other field by `State.raise`, and the eleven codes of R221. -/
theorem raiseRecordsAndNothingElse : Obligations.RaiseRecordsAndNothingElse :=
  ⟨fun s e _ => ⟨rfl, fun _ hk => getLsbD_errSet s.err e hk⟩, rfl⟩

end Sys2Proof.Machine
end

section
/-! PROOFS. Family 70_reset_and_hazards: the reset that is refused and the open that fails after an accepted one (R262), and the start code of
every frame (R280). -/

namespace Sys2Proof.Machine

/-! ## Reset -/

/-- The first step of `SEQ`, when its open fails for a device that is not open, halts and records `E_OPEN` alone (R152, R262). -/
theorem step_of_openFailed {s : State} (ht : s.seqTurn) (hp : s.atPhase .i1Open) (hdev : s.devIndex ∉ s.devOpen)
    (hd : s.nextDraw.answersOk = false) :
    ∃ t, step s = .next t ∧ t.halted ∧ t.err = errSet s.err .eOpen ∧ t.log = s.log ++ [⟨t.now, .eOpen, .device s.devIndex⟩] := by
  have hstep : step s = .next (phaseOpen s.begun) := step_of_phase ht hp rfl phaseStep_i1Open
  obtain ⟨hok, -⟩ | ⟨-, hopen⟩ := phaseOpen_cases_of_notMem (s := s.begun) hdev
  · exact absurd (hok.symm.trans hd) (by decide)
  · exact ⟨_, hstep.trans (congrArg _ hopen), ⟨rfl, rfl⟩, rfl, rfl⟩

/-- Settles O14: `State.create` by `FREQ`, and the step of `I1_OPEN` from the state of R48. -/
theorem resetRefusesOnlyZeroFrequency : Obligations.ResetRefusesOnlyZeroFrequency := by
  intro c p now dev
  refine ⟨State.create_of_freq_zero p now dev, fun hc => ⟨State.fresh c p now dev, State.create_of_freq_ne_zero p now dev hc, ?_⟩⟩
  intro sched draws hdev hd
  obtain ⟨t, hstep, hhalted, herr, hlog⟩ := step_of_openFailed rfl ⟨rfl, rfl⟩ hdev hd
  have hbit : errSet 0#16 .eOpen = 0x0002#16 := by decide
  exact ⟨t, hstep, hhalted, herr.trans hbit, hlog⟩

/-! ## The frame image -/

/-- A frame image has 513 bytes (R51). -/
theorem Memory.frame_length (m : Memory) : m.frame.length = 513 := m.slots_length 0 Config.nslots

/-- A frame image starts with slot 0 (R51). -/
theorem Memory.frame_head? (m : Memory) : m.frame.head? = some (m.read 0) := by
  simp [Memory.frame_eq_map_read, List.head?_range]

/-! ## What a step sends to the device -/

section
variable {s t : State}

/-- From `s` to `t`, `TRACE` gains at most one event, and a write only of the frame image of `s` (R98). -/
def State.SendsOnlyItsFrame (s t : State) : Prop :=
  t.trace = s.trace ∨ ∃ e, t.trace = s.trace ++ [e] ∧ ∀ b, e.op = .tWrite b → b = s.fb.frame

/-- A write in the later trace stood in the earlier one or is of the frame image. -/
theorem State.SendsOnlyItsFrame.mem_or_eq_frame (h : s.SendsOnlyItsFrame t) {e : TraceEntry} (he : e ∈ t.trace) {b : List Byte}
    (hb : e.op = .tWrite b) : e ∈ s.trace ∨ b = s.fb.frame := by
  obtain heq | ⟨f, heq, hf⟩ := h
  · exact .inl (heq ▸ he)
  · obtain hold | rfl := List.mem_append.1 (heq ▸ he) |>.imp_right List.mem_singleton.1
    · exact .inl hold
    · exact .inr (hf b hb)

/-- A command keeps this: the one event it may add is that of `T_CONFIGURE` or `T_ENUMERATE` (R202, R204). -/
theorem ExecResult.sendsOnlyItsFrame {i : Instr} (h : ExecResult s i t) : s.SendsOnlyItsFrame t := by
  cases h with
  | set | bounds | stop | clear => exact .inl rfl
  | _ => exact .inr ⟨_, rfl, nofun⟩

/-- Two phases write to the device, and both send the frame image (R167, R174). -/
theorem PhaseResult.sendsOnlyItsFrame {now : Nat} (h : PhaseResult now s t) : s.SendsOnlyItsFrame t := by
  cases h with
  | command _ _ _ _ _ hc => exact hc.sendsOnlyItsFrame
  | writeOk | writeErr | zeroOk | zeroErr => exact .inr ⟨_, rfl, fun _ hb => (Prim.tWrite.inj hb).symm⟩
  | openOk | openExcl | openErr | configOk | configErr | breakOk | breakErr | mabOk | mabErr | closeOk | closeErr
  | finalBreakOk | finalBreakErr | finalMabOk | finalMabErr => exact .inr ⟨_, rfl, nofun⟩
  | _ => exact .inl rfl

/-- A step writes nothing but the frame image to the device, whichever agent makes it (R49, R98). -/
theorem step_sendsOnlyItsFrame (h : step s = .next t) : s.SendsOnlyItsFrame t := by
  obtain ⟨-, -, hu⟩ | ⟨hm, ha⟩ := step_cases h
  · exact hu.sendsOnlyItsFrame
  · obtain ⟨_, _, _, _, _, _, rfl, -⟩ := agentStep_frame hm ha
    exact .inl rfl

/-! ## The start code -/

/-- `SetChannel` reaches slots 1 to 512 only and `ClearFrame` writes 0 (R280). -/
theorem ExecResult.startCode {i : Instr} (h : ExecResult s i t) : t.fb.read 0 = s.fb.read 0 ∨ t.fb.read 0 = 0#8 := by
  cases h with
  | set c v hc => exact .inl (Memory.read_write_other s.fb v (Nat.ne_of_lt hc.1))
  | clear => exact .inr rfl
  | _ => exact .inl rfl

end

/-- Settles O48: what a command leaves in slot 0, and the frame image, whose head is slot 0, as the one write a step may add. -/
theorem everyFrameHasStartCodeZero : Obligations.EveryFrameHasStartCodeZero := by
  refine ⟨fun i s t h => ?command, fun s t hinv h hs e he b hb => ?frame⟩
  case command =>
    obtain ⟨u, hexec, hres⟩ := exec_cases i s
    cases hexec.symm.trans h
    exact hres.startCode
  case frame =>
    obtain hold | hframe := (step_sendsOnlyItsFrame h).mem_or_eq_frame he hb
    · exact hs e hold b hb
    · rw [hframe]
      exact ⟨s.fb.frame_length, s.fb.frame_head?.trans (congrArg some hinv.startCode)⟩

end Sys2Proof.Machine
end

section
/-! PROOFS. Family other, the codec: decoding and encoding undo each other at every width (R83, R14), the words of V-ENC, and the response
header (R77). -/

namespace Sys2Proof

/-! ## What the decoder reads from the encoder's word -/

section
variable {f : CmdFormat}

/-- The tag is what stands above the operand bits (R72). -/
theorem CmdFormat.tagField_of_operand_lt {tag operand : Nat} (h : operand < 2 ^ f.operandBits) :
    f.tagField (tag * 2 ^ f.operandBits + operand) = tag := by
  rw [CmdFormat.tagField, Nat.mul_comm, Nat.mul_add_div (Nat.two_pow_pos _), Nat.div_eq_of_lt h, Nat.add_zero]

/-- The operand bits are what stands below the tag (R76). -/
theorem CmdFormat.operandField_of_operand_lt {tag operand : Nat} (h : operand < 2 ^ f.operandBits) :
    f.operandField (tag * 2 ^ f.operandBits + operand) = operand := by
  rw [CmdFormat.operandField, Nat.mul_comm, Nat.mul_add_mod, Nat.mod_eq_of_lt h]

/-- A word with one of the tags fits, at widths that hold the five tags. -/
theorem CmdFormat.word_lt (hf : f.wf = true) {tag operand : Nat} (ht : tag < 5) (h : operand < 2 ^ f.operandBits) :
    tag * 2 ^ f.operandBits + operand < 2 ^ f.cmdBits := by
  have hwidth : 2 ^ (f.operandBits + 3) ≤ 2 ^ f.cmdBits := Nat.pow_le_pow_right (by decide) (of_decide_eq_true hf)
  rw [Nat.pow_add] at hwidth
  have htag : tag * 2 ^ f.operandBits ≤ 4 * 2 ^ f.operandBits := Nat.mul_le_mul_right _ (Nat.le_of_lt_succ ht)
  omega

/-- An index that fits its field, with any value, fits the operand bits (R72, R73). -/
theorem CmdFormat.index_value_lt {index : Nat} (value : Byte) (h : index < 2 ^ f.indexBits) :
    index * 256 + value.toNat < 2 ^ f.operandBits := by
  have hv := value.isLt
  rw [CmdFormat.operandBits, Nat.pow_add]
  omega

/-- The word of a `SetChannel` whose index fits (R83). -/
theorem CmdFormat.encode_setChannel {index : Nat} (value : Byte) (h : index < 2 ^ f.indexBits) :
    f.encode (.setChannel index value) = 0 * 2 ^ f.operandBits + (index * 256 + value.toNat) := by
  rw [CmdFormat.encode, Nat.mod_eq_of_lt h, CmdFormat.word, Nat.add_assoc]
  rfl

/-- The word of any other command is its tag alone (R83). -/
theorem CmdFormat.encode_bare {i : Instr} (h : i.tag ≠ 0) : f.encode i = i.tag * 2 ^ f.operandBits + 0 := by
  cases i with
  | setChannel => exact absurd rfl h
  | _ => exact congrArg (· + 0) (congrArg (_ + ·) (Nat.zero_mul _))

/-- Every tag is below 5 (R74). -/
theorem Instr.tag_lt (i : Instr) : i.tag < 5 := by
  cases i <;> simp [Instr.tag]

/-- The encoder's word fits its width (R71, R83). -/
theorem CmdFormat.encode_lt (hf : f.wf = true) {i : Instr} (hi : i.wfIn f = true) : f.encode i < 2 ^ f.cmdBits := by
  cases i with
  | setChannel c v =>
    have hc := of_decide_eq_true hi
    rw [CmdFormat.encode_setChannel v hc]
    exact CmdFormat.word_lt hf (by decide) (CmdFormat.index_value_lt v hc)
  | _ =>
    rw [CmdFormat.encode_bare (by decide)]
    exact CmdFormat.word_lt hf (Instr.tag_lt _) (Nat.two_pow_pos _)

/-- A word of tag 0 that fits is decoded to a `SetChannel` (R75). -/
theorem CmdFormat.decode_of_tag_zero {w : Nat} (hw : w < 2 ^ f.cmdBits) (ht : f.tagField w = 0) :
    f.decode w = .ok (.setChannel (w / 256) (BitVec.ofNat 8 w)) := by
  obtain ⟨hi, -⟩ := CmdFormat.indexField_of_tag_zero ht
  rw [CmdFormat.decode, if_neg (Nat.not_le_of_lt hw), ht, hi]
  rfl

/-- A command without operands is decoded from its tag with all operand bits 0 (R75, R76). -/
theorem CmdFormat.decode_of_tag {w : Nat} {i : Instr} (hw : w < 2 ^ f.cmdBits) (ht : f.tagField w = i.tag)
    (ho : f.operandField w = 0) (hi : i.tag ≠ 0) : f.decode w = .ok i := by
  have hbare (j : Instr) : f.bare j w = .ok j := if_pos ho
  rw [CmdFormat.decode, if_neg (Nat.not_le_of_lt hw), ht]
  cases i with
  | setChannel => exact absurd rfl hi
  | _ => exact hbare _

/-- Decoding undoes encoding, at every width (R83). -/
theorem CmdFormat.decode_encode (hf : f.wf = true) {i : Instr} (hi : i.wfIn f = true) : f.decode (f.encode i) = .ok i := by
  have hlt := CmdFormat.encode_lt hf hi
  cases i with
  | setChannel c v =>
    have hc := of_decide_eq_true hi
    have hv := v.isLt
    rw [CmdFormat.encode_setChannel v hc] at hlt ⊢
    rw [CmdFormat.decode_of_tag_zero hlt (CmdFormat.tagField_of_operand_lt (CmdFormat.index_value_lt v hc))]
    have hindex : (0 * 2 ^ f.operandBits + (c * 256 + v.toNat)) / 256 = c := by omega
    have hvalue : BitVec.ofNat 8 (0 * 2 ^ f.operandBits + (c * 256 + v.toNat)) = v :=
      BitVec.eq_of_toNat_eq (by rw [BitVec.toNat_ofNat]; omega)
    rw [hindex, hvalue]
  | _ =>
    rw [CmdFormat.encode_bare (by decide)] at hlt ⊢
    exact CmdFormat.decode_of_tag hlt (CmdFormat.tagField_of_operand_lt (Nat.two_pow_pos _))
      (CmdFormat.operandField_of_operand_lt (Nat.two_pow_pos _)) (by decide)

/-- Encoding undoes decoding, at every width (R83). -/
theorem CmdFormat.encode_decode {w : Nat} {i : Instr} (h : f.decode w = .ok i) : f.encode i = w := by
  have hwf := CmdFormat.decode_wf h
  obtain ⟨-, e⟩ | ⟨-, ⟨-, -, e⟩ | ⟨rfl, e⟩ | ⟨rfl, e⟩ | ⟨rfl, e⟩ | ⟨rfl, e⟩ | ⟨-, -, -, e⟩ | ⟨-, e⟩⟩ := f.decode_cases w <;>
    rw [e] at h <;> cases h
  · rw [CmdFormat.encode_setChannel _ (of_decide_eq_true hwf), BitVec.toNat_ofNat]
    omega
  all_goals exact CmdFormat.encode_bare (by decide)

end

/-! ## The codec of 32-bit words -/

/-- The encoder of 32-bit words loses no bit of a well-formed command's word (R83). -/
theorem encode_toNat {i : Instr} (hi : i.wf = true) : (encode i).toNat = Config.format.encode i := by
  rw [encode, BitVec.toNat_ofNat]
  exact Nat.mod_eq_of_lt (CmdFormat.encode_lt (f := Config.format) rfl hi)

/-- Settles O1: the two codec laws at every width, and the 32-bit codec as a special case. -/
theorem decodeEncodeRoundTrip : Obligations.DecodeEncodeRoundTrip := by
  refine ⟨fun i hi => ?_, fun w i h => ⟨encode_of_decode h, CmdFormat.decode_wf h⟩,
    fun f hf => ⟨fun i hi => ⟨CmdFormat.encode_lt hf hi, CmdFormat.decode_encode hf hi⟩,
      fun w i h => ⟨CmdFormat.encode_decode h, CmdFormat.decode_wf h⟩⟩⟩
  rw [decode, encode_toNat hi]
  exact CmdFormat.decode_encode rfl hi

/-- Settles O3: eleven fixed words, by evaluation. -/
theorem sampleWordsDecode : Obligations.SampleWordsDecode := by
  unfold Obligations.SampleWordsDecode
  decide

/-! ## The response header -/

/-- The header's upper half as one number: `RTAG` and the zero field together (R77). -/
theorem header_toNat (n : Nat) (h : n ≤ 65535) : (0x0000#16 ++ BitVec.ofNat 16 n).toNat = n := by
  rw [BitVec.toNat_append, BitVec.toNat_ofNat, BitVec.toNat_ofNat, Nat.zero_mod, Nat.zero_shiftLeft, Nat.zero_or]
  exact Nat.mod_eq_of_lt (by omega)

/-- `COUNT` is read from a header below 65536 and from no other (R77). -/
theorem decodeHeader_eq_some_iff (h : Word) (n : Nat) : decodeHeader h = some n ↔ h.toNat < 65536 ∧ n = h.toNat := by
  have hlt := h.isLt
  have hupper : h.extractLsb' 16 16 = 0#16 ↔ h.toNat < 65536 := by
    rw [← BitVec.toNat_inj, BitVec.extractLsb'_toNat, BitVec.toNat_ofNat, Nat.shiftRight_eq_div_pow]
    omega
  simp only [decodeHeader, hupper, BitVec.extractLsb'_toNat, Nat.shiftRight_zero, Option.ite_none_right_eq_some, Option.some.injEq]
  omega

/-- Settles O4: a header is the count as a 32-bit number, and is read back where it is below 65536. -/
theorem responseHeaderCounts : Obligations.ResponseHeaderCounts := by
  refine ⟨fun l hl => ?encoded, fun l hl => ?tooLong, fun h n hd => ?refused⟩
  case encoded =>
    have hn := header_toNat l.length hl
    exact ⟨_, if_pos hl, hn, (decodeHeader_eq_some_iff _ _).2 ⟨by omega, hn.symm⟩⟩
  case tooLong =>
    have hnone : responseHeader (.deviceList l) = none := if_neg (Nat.not_le_of_lt hl)
    exact ⟨hnone, by simp [encodeResponse, hnone]⟩
  case refused =>
    obtain ⟨hlt, rfl⟩ := (decodeHeader_eq_some_iff h n).1 hd
    refine ⟨BitVec.eq_of_toNat_eq ?_, BitVec.eq_of_toNat_eq ?_, Nat.le_of_lt_succ hlt⟩ <;>
      rw [BitVec.extractLsb'_toNat, BitVec.toNat_ofNat, Nat.shiftRight_eq_div_pow] <;> omega

end Sys2Proof
end

section
/-! PROOFS. Family other, the Frame Buffer and the frames of the commands: the accessor laws (R117), the canonical form, the frame image (R51), and
what each command leaves unchanged (R200 to R204). -/

namespace Sys2Proof.Machine

/-! ## The Frame Buffer -/

/-- Every slot but the one written reads as before, in every buffer (R112). -/
theorem read_fbSet_other (m : Memory) {c d : Nat} (v : Byte) (h : d ≠ c) : (fbSet m c v).2.read d = m.read d := by
  obtain ⟨-, e⟩ | ⟨-, e⟩ := fbSet_cases m c v <;> rw [e]
  exact Memory.read_write_other m v h

/-- Settles O7: the four laws of R117, by what the buffer reads after a write. -/
theorem accessorLaws : Obligations.AccessorLaws := by
  intro m hm
  refine ⟨fun c v h1 h512 => ?_, fun c d v h1 h512 h1' h512' hcd => ⟨?_, ?_⟩, fun c v hc => ⟨?_, ?_⟩, fun c h1 h512 => ?_, rfl⟩
  · obtain ⟨-, e⟩ := (fbSet_cases m c v).resolve_right fun h => h.1 ⟨h1, h512⟩
    rw [fbGet_of_valid _ ⟨h1, h512⟩, e, Memory.read_write_same c v hm]
  · rw [fbGet_of_valid _ ⟨h1', h512'⟩, fbGet_of_valid _ ⟨h1', h512'⟩, read_fbSet_other m v hcd.symm]
  · exact read_fbSet_other m v (by omega)
  · exact ((fbSet_cases m c v).resolve_left fun h => by omega).2
  · exact ((fbGet_cases m c).resolve_left fun h => by omega).2
  · exact fbGet_of_valid _ ⟨h1, h512⟩

/-- Settles O10: canonical buffers with the same reads are the same list, and outside the index space both read blank. -/
theorem canonicalBufferIsUnique : Obligations.CanonicalBufferIsUnique := by
  intro m m' hm hm' h
  refine Memory.eq_of_read_eq hm hm' fun k => ?_
  obtain hk | hk : k < 513 ∨ Config.nslots ≤ k := Nat.lt_or_ge k 513
  · exact h k hk
  · rw [Memory.read_outside hm hk, Memory.read_outside hm' hk]

/-- Settles O11: the frame image is the slots from 0 up, all 513 of them. -/
theorem frameImageIsEverySlotInOrder : Obligations.FrameImageIsEverySlotInOrder := by
  intro m
  refine ⟨m.frame_length, fun k hk => ?_, rfl⟩
  exact (m.slots_getElem 0 Config.nslots k hk).trans (congrArg m.read (Nat.zero_add k))

/-! ## The frames of the commands -/

/-- An error whose bit lies outside a mask keeps the bits of the mask (R222). -/
theorem errSet_and {err m : BitVec 16} {e : ErrCode} (h : e.mask &&& m = 0#16) : errSet err e &&& m = err &&& m := by
  have hdistrib : errSet err e &&& m = (err &&& m) ||| (e.mask &&& m) := by
    unfold errSet
    ext i
    simp only [BitVec.getElem_and, BitVec.getElem_or, Bool.and_or_distrib_right]
  rw [hdistrib, h, BitVec.or_zero]

/-- The only result of a command is the one its execution answers. -/
theorem ExecResult.of_exec {s t : State} {i : Instr} (h : exec i s = .next t) : ExecResult s i t := by
  obtain ⟨u, e, hu⟩ := exec_cases i s
  cases e.symm.trans h
  exact hu

/-- Settles O21: the two results of `SetChannel`. -/
theorem setChannelFrame : Obligations.SetChannelFrame := by
  intro s t c v h
  cases ExecResult.of_exec h with
  | set _ _ hc =>
    have hvalid : validChannel (operandSlot c) = true := (validChannel_iff c).2 hc
    refine ⟨rfl, fun a ha => ?_, fun _ => ⟨rfl, rfl⟩, fun hn => absurd (hvalid.symm.trans hn) (by decide)⟩
    exact Memory.read_write_other s.fb v fun hac => ha ⟨hvalid, hac⟩
  | bounds _ _ hc =>
    exact ⟨rfl, fun _ _ => rfl, fun hv => absurd ((validChannel_iff c).1 hv) hc, fun _ => errSet_and (by decide)⟩

/-- Settles O22: the results of each command, field by field. -/
theorem otherCommandsFrame : Obligations.OtherCommandsFrame := by
  intro s t
  refine ⟨fun h => ?stop, fun h => ?reset, fun h => ?listDevices, fun h => ?clearFrame⟩
  case stop =>
    cases ExecResult.of_exec h
    exact ⟨rfl, fun _ => rfl⟩
  case reset =>
    cases ExecResult.of_exec h with
    | resetOk => exact ⟨rfl, fun _ => rfl, rfl⟩
    | resetErr => exact ⟨rfl, fun _ => rfl, errSet_and (by decide)⟩
  case listDevices =>
    have hEnum (err : BitVec 16) : errSet err .eEnum &&& ~~~0x0600#16 = err &&& ~~~0x0600#16 := errSet_and (by decide)
    have hSend (err : BitVec 16) : errSet err .eRspSend &&& ~~~0x0600#16 = err &&& ~~~0x0600#16 := errSet_and (by decide)
    cases ExecResult.of_exec h with
    | listSent => exact ⟨rfl, fun _ => rfl, rfl⟩
    | listDropped => exact ⟨rfl, fun _ => rfl, hSend _⟩
    | emptySent => exact ⟨rfl, fun _ => rfl, hEnum _⟩
    | emptyDropped => exact ⟨rfl, fun _ => rfl, (hSend _).trans (hEnum _)⟩
  case clearFrame =>
    cases ExecResult.of_exec h
    exact ⟨rfl, fun hwf a ha => (Memory.read_outside hwf ha).symm⟩

end Sys2Proof.Machine
end

section
/-! PROOFS. Family other, reset and the moves of the agents: what reset leaves (R48), the run of a decoded command (R160, R191), and the steps of the
host, the clock and the transport's other users (R206, R208, R41, R43). -/

namespace Sys2Proof.Machine

/-- Settles O15: reset answers `State.fresh`. -/
theorem resetLeavesTheValuesOfTheTable : Obligations.ResetLeavesTheValuesOfTheTable := by
  intro c p now dev s hs
  obtain ⟨-, rfl⟩ := create_eq hs
  exact ⟨fun _ => rfl, ⟨rfl, rfl⟩, rfl, rfl, rfl, rfl, rfl, rfl, rfl, rfl, rfl, rfl, rfl, rfl, rfl, rfl, rfl, rfl, rfl, rfl, rfl,
    rfl, rfl⟩

/-! ## The steps of the other agents -/

/-- On another agent's turn the step is its move. -/
theorem step_of_nextMove {s : State} {m : Move} (h : s.nextMove = m) : step s = agentStep m s.advanced := by
  rw [step, h]

section
variable {s : State} {w : Nat}

/-- A valid word is queued at the tail of `CQ` (R191). -/
theorem State.hostSend_of_ok {i : Instr} (hi : s.params.format.decode w = .ok i) (ho : s.cqTxOpen = true) :
    s.hostSend w = { s with cq := s.cq ++ [i] } := by
  rw [State.hostSend, hi]
  exact if_pos ho

/-- An invalid word changes nothing (R78). -/
theorem State.hostSend_of_error {x : Invalid} (hx : s.params.format.decode w = .error x) : s.hostSend w = s := by
  rw [State.hostSend, hx]

/-- Without its endpoint the host sends nothing (R208). -/
theorem State.hostSend_of_closed (ho : s.cqTxOpen = false) : s.hostSend w = s :=
  s.hostSend_cases w |>.resolve_right fun ⟨_, _, h, _⟩ => absurd (ho.symm.trans h) (by decide)

/-- The host removes the head of `RQ` (R206). -/
theorem State.hostReceive_of_cons {m : Response} {l : List Response} (hl : s.rq = m :: l) (ho : s.rqRxOpen = true) :
    s.hostReceive = { s with rq := l } := by
  rw [State.hostReceive, if_pos ho, hl]
  rfl

/-- From an empty queue, or without its endpoint, the host receives nothing (R206, R208). -/
theorem State.hostReceive_of_nothing (h : s.rq = [] ∨ s.rqRxOpen = false) : s.hostReceive = s := by
  obtain h | h := h
  · rw [State.hostReceive, h, List.tail_nil, ← h]
    exact ite_self _
  · exact if_neg fun ho => absurd (h.symm.trans ho) (by decide)

end

/-- Settles O26: one clause for each outcome of a host step. -/
theorem hostSteps : Obligations.HostSteps := by
  intro s
  refine ⟨fun w hw => ?send, fun hr => ?receive, step_of_nextMove, step_of_nextMove⟩
  case send =>
    have hstep : step s = .next (s.advanced.hostSend w) := step_of_nextMove hw
    exact ⟨fun i hi ho => hstep.trans (congrArg _ (State.hostSend_of_ok (s := s.advanced) hi ho)),
      fun x hx => hstep.trans (congrArg _ (State.hostSend_of_error (s := s.advanced) hx)),
      fun ho => hstep.trans (congrArg _ (State.hostSend_of_closed (s := s.advanced) ho))⟩
  case receive =>
    have hstep : step s = .next s.advanced.hostReceive := step_of_nextMove hr
    exact ⟨fun m l hl ho => hstep.trans (congrArg _ (State.hostReceive_of_cons (s := s.advanced) hl ho)),
      fun h => hstep.trans (congrArg _ (State.hostReceive_of_nothing (s := s.advanced) h))⟩

/-- Settles O27: the moves of the clock and of the other users, by membership in `DEV_OPEN`. -/
theorem clockAndOtherInstanceMoves : Obligations.ClockAndOtherInstanceMoves := by
  intro s
  refine ⟨fun d => step_of_nextMove, fun i hi => ⟨_, step_of_nextMove hi, rfl, fun j => mem_insertIndex⟩, fun i hi => ?_⟩
  refine ⟨s.advanced.otherClose i, step_of_nextMove hi, ?_⟩
  unfold State.otherClose
  split <;> rename_i hheld
  · obtain ⟨hh, rfl⟩ := hheld
    exact ⟨rfl, fun _ _ => .rfl, fun hmem => ⟨hh, rfl, hmem⟩, fun h => h.2.2⟩
  · refine ⟨rfl, fun j hj => ?_, iff_of_false (fun h => (mem_removeIndex.1 h).2 rfl) fun ⟨hh, hdev, _⟩ => hheld ⟨hh, hdev⟩⟩
    exact mem_removeIndex.trans (and_iff_left hj)

/-! ## The run of a decoded command -/

/-- A step of `SEQ` at `S1_DRAIN` is the execution of the head of `CQ`, popped (R160). -/
theorem step_drain {s : State} {i : Instr} {rest : List Instr} (ht : s.seqTurn) (hp : s.atPhase .s1Drain) (hq : s.cq = i :: rest) :
    step s = exec i { s.begun with cq := rest } :=
  step_of_phase ht hp rfl fun h => (phaseStep_s1Drain h).trans (phaseDrain_cons (s := s.begun) hq)

/-- Settles O5: the word at `CMD_IN`, the pop at `S1_DRAIN`, and the two together on a placed word. -/
theorem stepRunsTheDecodedCommand : Obligations.StepRunsTheDecodedCommand := by
  refine ⟨fun s w i hw ho hi => ?_, fun s i rest => step_drain, fun s w i hi => ?_⟩
  · exact (step_of_nextMove hw).trans (congrArg _ (State.hostSend_of_ok (s := s.advanced) hi ho))
  · have hplace : s.withFetchWord 32 w = s.placeCommand i := by rw [State.withFetchWord, hi]
    rw [hplace]
    exact step_drain rfl ⟨rfl, rfl⟩ rfl

end Sys2Proof.Machine
end

section
/-! PROOFS. Family other, steps of known outcome: under its conditions a phase answers what `PhaseResult` allows it; the phases that wait (R42,
R153, R164, R166, R135); and the five fields no rule reads (R30, R31, R44 to R46). -/

namespace Sys2Proof.Machine

/-! ## The outcome under a condition -/

/-- An operation whose outcome the answer decides has the outcome of that answer (R91). -/
theorem eq_of_answer {α : Type} {b : Bool} {v x y : α} (hc : (b = true ∧ v = x) ∨ (b = false ∧ v = y)) :
    (b = true → v = x) ∧ (b = false → v = y) := by
  obtain ⟨rfl, rfl⟩ | ⟨rfl, rfl⟩ := hc <;> simp

section
variable {s : State} {t d : Nat} {p : Phase}

/-- A sleep whose end is reached leaves the phase (R42). -/
theorem State.sleepThen_of_le (h : s.wakeTime t d ≤ s.now) : s.sleepThen t d p = { s with wake := none, ph := p } := if_pos h

/-- A sleep whose end is not reached goes on (R42). -/
theorem State.sleepThen_of_lt (h : s.now < s.wakeTime t d) : s.sleepThen t d p = { s with wake := some (s.wakeTime t d) } :=
  if_neg (Nat.not_le_of_lt h)

/-- Under `Adequate` a hold is a sleep (R164, R166). -/
theorem State.holdThen_of_adequate (h : s.tc = .adequate) : s.holdThen t d p = s.sleepThen t d p := if_pos h

/-- Without `Adequate` a hold leaves the phase at once (R164, R166). -/
theorem State.holdThen_of_ne_adequate (h : s.tc ≠ .adequate) : s.holdThen t d p = { s with ph := p } := if_neg h

/-- A hold whose end is reached leaves the phase. -/
theorem State.holdThen_of_le (h : s.tc = .adequate) (hw : s.wakeTime t d ≤ s.now) :
    s.holdThen t d p = { s with wake := none, ph := p } :=
  (State.holdThen_of_adequate h).trans (State.sleepThen_of_le hw)

/-- A hold whose end is not reached goes on. -/
theorem State.holdThen_of_lt (h : s.tc = .adequate) (hw : s.now < s.wakeTime t d) :
    s.holdThen t d p = { s with wake := some (s.wakeTime t d) } :=
  (State.holdThen_of_adequate h).trans (State.sleepThen_of_lt hw)

/-- Inside a yield only time passes (R135). -/
theorem phasePace_of_yielding (h : s.now < s.wake.getD 0) : phasePace s = s := if_pos (decide_eq_true h)

/-- Outside a yield the pacer makes its check (R135). -/
theorem phasePace_of_le (h : s.wake.getD 0 ≤ s.now) : phasePace s =
    if boundaryReached s.cycleStart s.targetMs s.now then s.nextCycle
    else { s with wake := if s.tc = .adequate then some (s.now + s.params.yieldUs) else none } :=
  if_neg (by simpa [State.yielding] using h)

/-- With a final preamble its assert follows `X1_CLEAR` (log entry 25). -/
theorem phaseClear_of_finalPreamble (h : s.params.finalPreamble = true) : phaseClear s = { s with fb := [], ph := .xpBreak } := by
  unfold phaseClear; rw [h]; rfl

end

/-- The converse of `phaseStep_cases`: under the conditions of a result the phase answers it (R152 to R176). -/
theorem PhaseResult.phaseStep_eq {t : Nat} {s u : State} (h : PhaseResult t s u) : phaseStep t s = .next u := by
  cases h with
  | openOk hp hm hd => rw [phaseStep_i1Open hp, (eq_of_answer (phaseOpen_cases_of_notMem hm)).1 hd]
  | openErr hp hm hd => rw [phaseStep_i1Open hp, (eq_of_answer (phaseOpen_cases_of_notMem hm)).2 hd]
  | openExcl hp hm => rw [phaseStep_i1Open hp, phaseOpen_of_mem hm]
  | settled hp hw => rw [phaseStep_i2Settle hp, phaseSettle, State.sleepThen_of_le hw]
  | settling hp hw => rw [phaseStep_i2Settle hp, phaseSettle, State.sleepThen_of_lt hw]
  | probe hp => exact phaseStep_i3Probe hp
  | configOk hp hd => rw [phaseStep_i4Config hp, (eq_of_answer (phaseConfig_cases s)).1 hd]
  | configErr hp hd => rw [phaseStep_i4Config hp, (eq_of_answer (phaseConfig_cases s)).2 hd]
  | drained hp hq => rw [phaseStep_s1Drain hp, phaseDrain_nil hq]
  | command c rest u hp hq hu => rw [phaseStep_s1Drain hp, phaseDrain_cons hq, hu.exec_eq]
  | stamp hp => exact phaseStep_s2Stamp hp
  | breakOk hp hd => rw [phaseStep_s3Break hp, phaseBreak, (eq_of_answer (s.assertThen_cases _ _)).1 hd]
  | breakErr hp hd => rw [phaseStep_s3Break hp, phaseBreak, (eq_of_answer (s.assertThen_cases _ _)).2 hd]
  | breakHeld hp ht hw => rw [phaseStep_s4BreakHold hp, phaseBreakHold, State.holdThen_of_le ht hw]
  | breakHolding hp ht hw => rw [phaseStep_s4BreakHold hp, phaseBreakHold, State.holdThen_of_lt ht hw]
  | breakNoHold hp ht => rw [phaseStep_s4BreakHold hp, phaseBreakHold, State.holdThen_of_ne_adequate ht]
  | mabOk hp hd => rw [phaseStep_s5Mab hp, phaseMab, (eq_of_answer (s.deassertThen_cases _ _)).1 hd]
  | mabErr hp hd => rw [phaseStep_s5Mab hp, phaseMab, (eq_of_answer (s.deassertThen_cases _ _)).2 hd]
  | mabHeld hp ht hw => rw [phaseStep_s6MabHold hp, phaseMabHold, State.holdThen_of_le ht hw]
  | mabHolding hp ht hw => rw [phaseStep_s6MabHold hp, phaseMabHold, State.holdThen_of_lt ht hw]
  | mabNoHold hp ht => rw [phaseStep_s6MabHold hp, phaseMabHold, State.holdThen_of_ne_adequate ht]
  | writeOk hp hd => rw [phaseStep_s7Write hp, (eq_of_answer (phaseWrite_cases s)).1 hd]
  | writeErr hp hd => rw [phaseStep_s7Write hp, (eq_of_answer (phaseWrite_cases s)).2 hd]
  | yielding hp hy => rw [phaseStep_s8Pace hp, phasePace_of_yielding hy]
  | paced hp hy hb =>
    have hreached : boundaryReached s.cycleStart s.targetMs s.now = true := decide_eq_true hb
    rw [phaseStep_s8Pace hp, phasePace_of_le hy, if_pos hreached]
  | pacing hp hy hb =>
    have hearly : ¬boundaryReached s.cycleStart s.targetMs s.now = true := by simpa [boundaryReached] using hb
    rw [phaseStep_s8Pace hp, phasePace_of_le hy, if_neg hearly]
  | flush hp => exact phaseStep_d1Flush hp
  | clear hp hf => rw [phaseStep_x1Clear hp, phaseClear_of_not_finalPreamble hf]
  | clearFinal hp hf => rw [phaseStep_x1Clear hp, phaseClear_of_finalPreamble hf]
  | zeroOk hp hd => rw [phaseStep_x2ZeroWrite hp, (eq_of_answer (phaseZeroWrite_cases s)).1 hd]
  | zeroErr hp hd => rw [phaseStep_x2ZeroWrite hp, (eq_of_answer (phaseZeroWrite_cases s)).2 hd]; rfl
  | closeOk hp hd => rw [phaseStep_x3Release hp, (eq_of_answer (phaseRelease_cases s)).1 hd]
  | closeErr hp hd => rw [phaseStep_x3Release hp, (eq_of_answer (phaseRelease_cases s)).2 hd]
  | halt hp => exact phaseStep_x4Halt hp
  | finalBreakOk hp hd => rw [phaseStep_xpBreak hp, phaseFinalBreak, (eq_of_answer (s.assertThen_cases _ _)).1 hd]
  | finalBreakErr hp hd => rw [phaseStep_xpBreak hp, phaseFinalBreak, (eq_of_answer (s.assertThen_cases _ _)).2 hd]
  | finalBreakHeld hp ht hw => rw [phaseStep_xpBreakHold hp, phaseFinalBreakHold, State.holdThen_of_le ht hw]
  | finalBreakHolding hp ht hw => rw [phaseStep_xpBreakHold hp, phaseFinalBreakHold, State.holdThen_of_lt ht hw]
  | finalBreakNoHold hp ht => rw [phaseStep_xpBreakHold hp, phaseFinalBreakHold, State.holdThen_of_ne_adequate ht]
  | finalMabOk hp hd => rw [phaseStep_xpMab hp, phaseFinalMab, (eq_of_answer (s.deassertThen_cases _ _)).1 hd]
  | finalMabErr hp hd => rw [phaseStep_xpMab hp, phaseFinalMab, (eq_of_answer (s.deassertThen_cases _ _)).2 hd]
  | finalMabHeld hp ht hw => rw [phaseStep_xpMabHold hp, phaseFinalMabHold, State.holdThen_of_le ht hw]
  | finalMabHolding hp ht hw => rw [phaseStep_xpMabHold hp, phaseFinalMabHold, State.holdThen_of_lt ht hw]
  | finalMabNoHold hp ht => rw [phaseStep_xpMabHold hp, phaseFinalMabHold, State.holdThen_of_ne_adequate ht]

/-- On its turn at a position of the block, `SEQ` does what its conditions allow. -/
theorem step_of_result {s u : State} (ht : s.seqTurn) (hp : s.placed) (h : PhaseResult s.now s.begun u) : step s = .next u :=
  (step_seq ht hp).trans h.phaseStep_eq

/-! ## The phases that wait -/

/-- In a build with a final preamble every phase in its loop state is a position of the block (log entry 25). -/
theorem State.placed_of_finalPreamble {s : State} {p : Phase} (hf : s.params.finalPreamble = true) (h : s.atPhase p) : s.placed :=
  ⟨h.2 ▸ h.1, fun _ => hf⟩

/-- What a failed assert records, field by field (R163, R222). -/
theorem State.skipTo_eBreakOn (s : State) (q : Phase) :
    State.skipTo { s.record .tSetBreak (.err .breakFailed) with line := .unknown } q .eBreakOn .nothing =
      { s with
        trace := s.trace ++ [⟨s.now, .tSetBreak, .err .breakFailed⟩], line := .unknown, err := s.err ||| 0x0020#16,
        log := s.log ++ [⟨s.now, .eBreakOn, .nothing⟩], ph := q } := rfl

/-- What a failed deassert records, field by field (R165, R222). -/
theorem State.skipTo_eBreakOff (s : State) (q : Phase) :
    State.skipTo { s.record .tClearBreak (.err .breakFailed) with line := .unknown } q .eBreakOff .nothing =
      { s with
        trace := s.trace ++ [⟨s.now, .tClearBreak, .err .breakFailed⟩], line := .unknown, err := s.err ||| 0x0040#16,
        log := s.log ++ [⟨s.now, .eBreakOff, .nothing⟩], ph := q } := rfl

/-- Settles O29: each clause is one result of the phase, under that result's conditions. -/
theorem sleepPhases : Obligations.SleepPhases := by
  rintro s _ rfl ht
  have hstep {p : Phase} {u : State} (hp : s.atPhase p) (hfp : p.ofFinalPreamble = false) :=
    step_of_result (u := u) ht (State.placed_of_atPhase hp hfp)
  refine ⟨?settle, ?breakHold, ?mabHold, fun hp hc => hstep hp rfl (.breakNoHold hp.2 hc),
    fun hp hc => hstep hp rfl (.mabNoHold hp.2 hc), fun hf => ?final⟩
  case settle =>
    rintro _ rfl hp
    exact ⟨fun hw => hstep hp rfl (.settled hp.2 hw), fun hw => hstep hp rfl (.settling hp.2 hw)⟩
  case breakHold =>
    rintro _ rfl hp hc
    exact ⟨fun hw => hstep hp rfl (.breakHeld hp.2 hc hw), fun hw => hstep hp rfl (.breakHolding hp.2 hc hw)⟩
  case mabHold =>
    rintro _ rfl hp hc
    exact ⟨fun hw => hstep hp rfl (.mabHeld hp.2 hc hw), fun hw => hstep hp rfl (.mabHolding hp.2 hc hw)⟩
  case final =>
    have hstep {p : Phase} {u : State} (hp : s.atPhase p) := step_of_result (u := u) ht (State.placed_of_finalPreamble hf hp)
    refine ⟨fun hp => hstep hp (.clearFinal hp.2 hf), fun hp hd => hstep hp (.finalBreakOk hp.2 hd),
      fun hp hd => (hstep hp (.finalBreakErr hp.2 hd)).trans (congrArg _ (s.begun.skipTo_eBreakOn _)), ?_,
      fun hp hc => hstep hp (.finalBreakNoHold hp.2 hc), fun hp hd => hstep hp (.finalMabOk hp.2 hd),
      fun hp hd => (hstep hp (.finalMabErr hp.2 hd)).trans (congrArg _ (s.begun.skipTo_eBreakOff _)), ?_,
      fun hp hc => hstep hp (.finalMabNoHold hp.2 hc)⟩
    · rintro _ rfl hp hc
      exact ⟨fun hw => hstep hp (.finalBreakHeld hp.2 hc hw), fun hw => hstep hp (.finalBreakHolding hp.2 hc hw)⟩
    · rintro _ rfl hp hc
      exact ⟨fun hw => hstep hp (.finalMabHeld hp.2 hc hw), fun hw => hstep hp (.finalMabHolding hp.2 hc hw)⟩

/-- Settles O35: each clause is one result of `S8_PACE`. -/
theorem pacePhase : Obligations.PacePhase := by
  rintro s _ rfl ht hp
  have hstep {u : State} := step_of_result (u := u) ht (State.placed_of_atPhase hp rfl)
  refine ⟨fun w hw hlt => hstep (.yielding hp.2 (by simpa [hw] using hlt)), fun hw => ?_⟩
  have hawake : s.begun.wake.getD 0 ≤ s.begun.now := by
    cases h : s.wake with
    | none => simp [h]
    | some w => simpa [h] using hw w h
  refine ⟨fun hb => hstep (.paced hp.2 hawake hb), fun hb hc => ?_, fun hb hc => ?_⟩
  · have hpacing := hstep (.pacing hp.2 hawake hb)
    rwa [if_pos hc] at hpacing
  · have hpacing := hstep (.pacing hp.2 hawake hb)
    rwa [if_neg hc] at hpacing

/-! ## The fields no rule reads -/

/-- The five fields of the state that record and that no rule reads: `ERR`, `LOG`, `BRK`, `LINE` and `TRACE`. -/
structure Diagnostics where
  err   : BitVec 16
  log   : List LogEntry
  brk   : Bool
  line  : Line
  trace : List TraceEntry

/-- The state with other contents of these five fields. -/
def State.withDiagnostics (s : State) (d : Diagnostics) : State :=
  { s with err := d.err, log := d.log, brk := d.brk, line := d.line, trace := d.trace }

/-- A command does the same whatever the five fields hold. -/
theorem ExecResult.withDiagnostics {s t : State} {i : Instr} (h : ExecResult s i t) (d : Diagnostics) :
    ∃ d', ExecResult (s.withDiagnostics d) i (t.withDiagnostics d') := by
  cases h with
  | set c v hc => exact ⟨⟨_, _, _, _, _⟩, .set c v hc⟩
  | bounds c v hc => exact ⟨⟨_, _, _, _, _⟩, .bounds c v hc⟩
  | stop => exact ⟨⟨_, _, _, _, _⟩, .stop⟩
  | resetOk hd => exact ⟨⟨_, _, _, _, _⟩, .resetOk hd⟩
  | resetErr hd => exact ⟨⟨_, _, _, _, _⟩, .resetErr hd⟩
  | clear => exact ⟨⟨_, _, _, _, _⟩, .clear⟩
  | listSent hd hr => exact ⟨⟨_, _, _, _, _⟩, .listSent hd hr⟩
  | listDropped hd hr => exact ⟨⟨_, _, _, _, _⟩, .listDropped hd hr⟩
  | emptySent hd hr => exact ⟨⟨_, _, _, _, _⟩, .emptySent hd hr⟩
  | emptyDropped hd hr => exact ⟨⟨_, _, _, _, _⟩, .emptyDropped hd hr⟩

/-- A phase does the same whatever the five fields hold. -/
theorem PhaseResult.withDiagnostics {t : Nat} {s u : State} (h : PhaseResult t s u) (d : Diagnostics) :
    ∃ d', PhaseResult t (s.withDiagnostics d) (u.withDiagnostics d') := by
  cases h with
  | openOk h₁ h₂ h₃ => exact ⟨⟨_, _, _, _, _⟩, .openOk h₁ h₂ h₃⟩
  | openExcl h₁ h₂ => exact ⟨⟨_, _, _, _, _⟩, .openExcl h₁ h₂⟩
  | openErr h₁ h₂ h₃ => exact ⟨⟨_, _, _, _, _⟩, .openErr h₁ h₂ h₃⟩
  | settled h₁ h₂ => exact ⟨⟨_, _, _, _, _⟩, .settled h₁ h₂⟩
  | settling h₁ h₂ => exact ⟨⟨_, _, _, _, _⟩, .settling h₁ h₂⟩
  | probe h₁ => exact ⟨⟨_, _, _, _, _⟩, .probe h₁⟩
  | configOk h₁ h₂ => exact ⟨⟨_, _, _, _, _⟩, .configOk h₁ h₂⟩
  | configErr h₁ h₂ => exact ⟨⟨_, _, _, _, _⟩, .configErr h₁ h₂⟩
  | drained h₁ h₂ => exact ⟨⟨_, _, _, _, _⟩, .drained h₁ h₂⟩
  | command c rest u hp hq hu =>
    obtain ⟨d', hd'⟩ := hu.withDiagnostics d
    exact ⟨d', .command c rest _ hp hq hd'⟩
  | stamp h₁ => exact ⟨⟨_, _, _, _, _⟩, .stamp h₁⟩
  | breakOk h₁ h₂ => exact ⟨⟨_, _, _, _, _⟩, .breakOk h₁ h₂⟩
  | breakErr h₁ h₂ => exact ⟨⟨_, _, _, _, _⟩, .breakErr h₁ h₂⟩
  | breakHeld h₁ h₂ h₃ => exact ⟨⟨_, _, _, _, _⟩, .breakHeld h₁ h₂ h₃⟩
  | breakHolding h₁ h₂ h₃ => exact ⟨⟨_, _, _, _, _⟩, .breakHolding h₁ h₂ h₃⟩
  | breakNoHold h₁ h₂ => exact ⟨⟨_, _, _, _, _⟩, .breakNoHold h₁ h₂⟩
  | mabOk h₁ h₂ => exact ⟨⟨_, _, _, _, _⟩, .mabOk h₁ h₂⟩
  | mabErr h₁ h₂ => exact ⟨⟨_, _, _, _, _⟩, .mabErr h₁ h₂⟩
  | mabHeld h₁ h₂ h₃ => exact ⟨⟨_, _, _, _, _⟩, .mabHeld h₁ h₂ h₃⟩
  | mabHolding h₁ h₂ h₃ => exact ⟨⟨_, _, _, _, _⟩, .mabHolding h₁ h₂ h₃⟩
  | mabNoHold h₁ h₂ => exact ⟨⟨_, _, _, _, _⟩, .mabNoHold h₁ h₂⟩
  | writeOk h₁ h₂ => exact ⟨⟨_, _, _, _, _⟩, .writeOk h₁ h₂⟩
  | writeErr h₁ h₂ => exact ⟨⟨_, _, _, _, _⟩, .writeErr h₁ h₂⟩
  | yielding h₁ h₂ => exact ⟨⟨_, _, _, _, _⟩, .yielding h₁ h₂⟩
  | paced h₁ h₂ h₃ => exact ⟨⟨_, _, _, _, _⟩, .paced h₁ h₂ h₃⟩
  | pacing h₁ h₂ h₃ => exact ⟨⟨_, _, _, _, _⟩, .pacing h₁ h₂ h₃⟩
  | flush h₁ => exact ⟨⟨_, _, _, _, _⟩, .flush h₁⟩
  | clear h₁ h₂ => exact ⟨⟨_, _, _, _, _⟩, .clear h₁ h₂⟩
  | clearFinal h₁ h₂ => exact ⟨⟨_, _, _, _, _⟩, .clearFinal h₁ h₂⟩
  | zeroOk h₁ h₂ => exact ⟨⟨_, _, _, _, _⟩, .zeroOk h₁ h₂⟩
  | zeroErr h₁ h₂ => exact ⟨⟨_, _, _, _, _⟩, .zeroErr h₁ h₂⟩
  | closeOk h₁ h₂ => exact ⟨⟨_, _, _, _, _⟩, .closeOk h₁ h₂⟩
  | closeErr h₁ h₂ => exact ⟨⟨_, _, _, _, _⟩, .closeErr h₁ h₂⟩
  | halt h₁ => exact ⟨⟨_, _, _, _, _⟩, .halt h₁⟩
  | finalBreakOk h₁ h₂ => exact ⟨⟨_, _, _, _, _⟩, .finalBreakOk h₁ h₂⟩
  | finalBreakErr h₁ h₂ => exact ⟨⟨_, _, _, _, _⟩, .finalBreakErr h₁ h₂⟩
  | finalBreakHeld h₁ h₂ h₃ => exact ⟨⟨_, _, _, _, _⟩, .finalBreakHeld h₁ h₂ h₃⟩
  | finalBreakHolding h₁ h₂ h₃ => exact ⟨⟨_, _, _, _, _⟩, .finalBreakHolding h₁ h₂ h₃⟩
  | finalBreakNoHold h₁ h₂ => exact ⟨⟨_, _, _, _, _⟩, .finalBreakNoHold h₁ h₂⟩
  | finalMabOk h₁ h₂ => exact ⟨⟨_, _, _, _, _⟩, .finalMabOk h₁ h₂⟩
  | finalMabErr h₁ h₂ => exact ⟨⟨_, _, _, _, _⟩, .finalMabErr h₁ h₂⟩
  | finalMabHeld h₁ h₂ h₃ => exact ⟨⟨_, _, _, _, _⟩, .finalMabHeld h₁ h₂ h₃⟩
  | finalMabHolding h₁ h₂ h₃ => exact ⟨⟨_, _, _, _, _⟩, .finalMabHolding h₁ h₂ h₃⟩
  | finalMabNoHold h₁ h₂ => exact ⟨⟨_, _, _, _, _⟩, .finalMabNoHold h₁ h₂⟩

section
variable (s : State) (d : Diagnostics)

/-- `HostSend` neither reads nor writes the five fields (R191). -/
theorem State.hostSend_withDiagnostics (w : Nat) : (s.withDiagnostics d).hostSend w = (s.hostSend w).withDiagnostics d := by
  cases hw : s.params.format.decode w with
  | error x => rw [State.hostSend_of_error hw, State.hostSend_of_error (s := s.withDiagnostics d) hw]
  | ok i =>
    cases ho : s.cqTxOpen
    · rw [State.hostSend_of_closed ho, State.hostSend_of_closed (s := s.withDiagnostics d) ho]
    · rw [State.hostSend_of_ok hw ho, State.hostSend_of_ok (s := s.withDiagnostics d) hw ho]
      rfl

/-- Nor does the host's receive step (R206). -/
theorem State.hostReceive_withDiagnostics : (s.withDiagnostics d).hostReceive = s.hostReceive.withDiagnostics d := by
  rw [State.hostReceive.eq_1 s, apply_ite (State.withDiagnostics · d)]
  rfl

/-- Nor does another user's close (R43). -/
theorem State.otherClose_withDiagnostics (i : Word) : (s.withDiagnostics d).otherClose i = (s.otherClose i).withDiagnostics d := by
  rw [State.otherClose.eq_1 s, apply_ite (State.withDiagnostics · d)]
  rfl

end

/-- Another agent does the same whatever the five fields hold, and writes none of them. -/
theorem agentStep_withDiagnostics {m : Move} {s t : State} (hm : m ≠ .seq) (h : agentStep m s = .next t) (d : Diagnostics) :
    agentStep m (s.withDiagnostics d) = .next (t.withDiagnostics d) := by
  obtain ⟨w, rfl, rfl⟩ | ⟨rfl, rfl⟩ | ⟨rfl, rfl⟩ | ⟨rfl, rfl⟩ | ⟨a, rfl, rfl⟩ | ⟨i, rfl, rfl⟩ | ⟨i, rfl, rfl⟩ :=
    agentStep_cases hm h
  · exact congrArg Host.Outcome.next (s.hostSend_withDiagnostics d w)
  · exact congrArg Host.Outcome.next (s.hostReceive_withDiagnostics d)
  · rfl
  · rfl
  · rfl
  · rfl
  · exact congrArg Host.Outcome.next (s.otherClose_withDiagnostics d i)

/-- Settles O45: `SEQ` and every other agent do the same with other contents of the five fields. -/
theorem diagnosticsInfluenceNothing : Obligations.DiagnosticsInfluenceNothing := by
  intro s t err log brk line trace h
  obtain ⟨ht, hp, hu⟩ | ⟨hm, ha⟩ := step_cases h
  · obtain ⟨⟨err', log', brk', line', trace'⟩, hu'⟩ := hu.withDiagnostics ⟨err, log, brk, line, trace⟩
    exact ⟨err', log', brk', line', trace', step_of_result (s := s.withDiagnostics ⟨err, log, brk, line, trace⟩) ht hp hu'⟩
  · exact ⟨err, log, brk, line, trace, agentStep_withDiagnostics hm ha ⟨err, log, brk, line, trace⟩⟩

end Sys2Proof.Machine
end

section
/-! PROOFS. Family other, rules about every step: the moves of (`LS`, `PH`) (R23, R24), what a step records (R31, R45, R46, R105), and who
writes the queues, the endpoints and the Frame Buffer (R49, R55, R59, R64). -/

namespace Sys2Proof.Machine

/-! ## The position -/

/-- A successor's loop state is the same or one arrow on (R23, R24). -/
theorem Phase.loopState_of_successor {fp : Bool} {p q : Phase} (h : q ∈ p.successors fp) :
    q.loopState = p.loopState ∨ p.loopState.arrow q.loopState = true := by
  revert fp q; cases p <;> decide

/-- A phase of the final preamble follows only in a build that has one, or a phase of it (log entry 25). -/
theorem Phase.ofFinalPreamble_of_successor {fp : Bool} {p q : Phase} (h : q ∈ p.successors fp) (hq : q.ofFinalPreamble = true) :
    fp = true ∨ p.ofFinalPreamble = true := by
  revert fp q; cases p <;> decide

/-- A command leaves the phase, or sends `SEQ` from `S1_DRAIN` to `D1_FLUSH` (R160, R201). -/
theorem ExecResult.position {s t : State} {i : Instr} (h : ExecResult s i t) :
    (t.ls = s.ls ∧ t.ph = s.ph) ∨ (t.ls = .draining ∧ t.ph = .d1Flush) := by
  cases h with
  | stop => exact .inr ⟨rfl, rfl⟩
  | _ => exact .inl ⟨rfl, rfl⟩

section
variable {now : Nat} {s u : State}

/-- A step of `SEQ` follows the successor table, or stays where it waits or has halted (R24). -/
theorem PhaseResult.successor (h : PhaseResult now s u) :
    u.ph ∈ s.ph.successors s.params.finalPreamble ∨ u.ph = s.ph ∧ (s.ph.waits = true ∨ s.ph = .x4Halt) := by
  cases h with
  | command c rest _ hp hq hc =>
    refine .inl ?_
    obtain ⟨-, hph⟩ | ⟨-, hph⟩ := hc.position <;> rw [hph]
    · simp [hp, Phase.successors]
    · simp [hp, Phase.successors]
  | settling hp | breakHolding hp | mabHolding hp | yielding hp | pacing hp | finalBreakHolding hp | finalMabHolding hp =>
    exact .inr ⟨rfl, .inl (by rw [hp]; rfl)⟩
  | halt hp => exact .inr ⟨rfl, .inr hp⟩
  | clear hp hf | clearFinal hp hf => simp [hp, hf, Phase.successors]
  | _ => simp_all [Phase.successors]

/-- A step of `SEQ` writes the loop state its new phase belongs to (R24). -/
theorem PhaseResult.loopState (h : PhaseResult now s u) (hs : s.ls = s.ph.loopState) : u.ls = u.ph.loopState := by
  cases h with
  | command c rest _ hp hq hc =>
    obtain ⟨hls, hph⟩ | ⟨hls, hph⟩ := hc.position <;> rw [hls, hph]
    · exact hs
    · rfl
  | _ => simp_all [Phase.loopState]

end

/-- Settles O38: `SEQ` follows the table, by which the new position is one of the block; no other agent moves it. -/
theorem positionFollowsTheTable : Obligations.PositionFollowsTheTable := by
  intro s t hs h
  obtain ⟨hparams, -, -⟩ := step_params h
  obtain ⟨-, -, hu⟩ | ⟨hm, ha⟩ := step_cases h
  · have hls : t.ls = t.ph.loopState := hu.loopState hs.1
    obtain hsucc | ⟨hph, hwait⟩ := hu.successor
    · have harrow := Phase.loopState_of_successor hsucc
      rw [← hls, State.begun_ph, ← hs.1] at harrow
      refine ⟨⟨hls, fun hf => ?_⟩, harrow, .inl hsucc⟩
      rw [hparams]
      exact (Phase.ofFinalPreamble_of_successor hsucc hf).elim id hs.2
    · have hph : t.ph = s.ph := hph
      refine ⟨⟨hls, fun hf => ?_⟩, .inl ?_, .inr ⟨hph, hwait.imp_right .inl⟩⟩
      · rw [hparams]
        exact hs.2 (hph ▸ hf)
      · rw [hls, hph, hs.1]
  · obtain ⟨_, _, _, _, _, _, rfl, -⟩ := agentStep_frame hm ha
    exact ⟨hs, .inl rfl, .inr ⟨rfl, .inr (.inr hm)⟩⟩

/-! ## What a step records -/

section
variable {s t : State}

/-- From `s` to `t`, `LOG` gains events stamped with the time of `t`, and `ERR` exactly their bits (R31, R46, R222). -/
def State.Logs (s t : State) : Prop :=
  ∃ l, t.log = s.log ++ l ∧ (∀ e ∈ l, e.t = t.now) ∧ t.err = l.foldl (fun r e => r ||| e.code.mask) s.err

/-- From `s` to `t`, `TRACE` gains at most one event, stamped with the time of `t`: a primitive that the table of R105 gives `s`. -/
def State.Issues (s t : State) : Prop :=
  t.trace = s.trace ∨ ∃ op r, t.trace = s.trace ++ [⟨t.now, op, r⟩] ∧ s.mayIssue op

/-- No error is logged. -/
theorem State.Logs.none (hlog : t.log = s.log) (herr : t.err = s.err) : s.Logs t :=
  ⟨[], by rw [hlog, List.append_nil], nofun, herr⟩

/-- One error is raised. -/
theorem State.Logs.one {e : ErrCode} {info : ErrInfo} (hlog : t.log = s.log ++ [⟨t.now, e, info⟩]) (herr : t.err = errSet s.err e) :
    s.Logs t :=
  ⟨_, hlog, fun _ he => List.mem_singleton.1 he ▸ rfl, herr⟩

/-- One error is raised after another. -/
theorem State.Logs.two {e e' : ErrCode} {info info' : ErrInfo}
    (hlog : t.log = s.log ++ [⟨t.now, e, info⟩] ++ [⟨t.now, e', info'⟩]) (herr : t.err = errSet (errSet s.err e) e') : s.Logs t := by
  refine ⟨[⟨t.now, e, info⟩, ⟨t.now, e', info'⟩], by rw [hlog, List.append_assoc]; rfl, fun f hf => ?_, herr⟩
  obtain rfl | hf := List.mem_cons.1 hf
  · rfl
  · exact List.mem_singleton.1 hf ▸ rfl

/-- A command logs the errors it raises (R200, R202, R204). -/
theorem ExecResult.logs {i : Instr} (h : ExecResult s i t) : s.Logs t := by
  cases h with
  | bounds | resetErr | listDropped | emptySent => exact .one rfl rfl
  | emptyDropped => exact .two rfl rfl
  | _ => exact .none rfl rfl

/-- A phase logs the error it raises, or those of its command (R152 to R175). -/
theorem PhaseResult.logs {now : Nat} (h : PhaseResult now s t) : s.Logs t := by
  cases h with
  | command c rest _ hp hq hc => exact hc.logs
  | openExcl | openErr | configErr | breakErr | mabErr | writeErr | zeroErr | closeErr | finalBreakErr | finalMabErr =>
    exact .one rfl rfl
  | _ => exact .none rfl rfl

/-- A command issues the primitive R105 gives it, the command being at the head of `CQ`. -/
theorem ExecResult.issues {c : Instr} {rest : List Instr} (h : ExecResult { s with cq := rest } c t) (hp : s.ph = .s1Drain)
    (hq : s.cq = c :: rest) : s.Issues t := by
  have hhead : s.cq.head? = some c := by rw [hq, List.head?_cons]
  cases h with
  | resetOk | resetErr => exact .inr ⟨_, _, rfl, .inr ⟨hp, hhead⟩, rfl, rfl, rfl⟩
  | listSent | listDropped | emptySent | emptyDropped => exact .inr ⟨_, _, rfl, hp, hhead⟩
  | _ => exact .inl rfl

/-- A phase of a position of the block issues the primitive R105 gives it (with a final preamble: log entry 25). -/
theorem PhaseResult.issues {now : Nat} (h : PhaseResult now s t) (hs : s.placed) : s.Issues t := by
  have hfinal {p : Phase} (hp : s.ph = p) (hf : p.ofFinalPreamble = true) : s.params.finalPreamble = true := hs.2 (hp ▸ hf)
  cases h with
  | command c rest _ hp hq hc => exact hc.issues hp hq
  | openOk hp | openExcl hp | openErr hp => exact .inr ⟨_, _, rfl, hp, rfl⟩
  | configOk hp | configErr hp => exact .inr ⟨_, _, rfl, .inl hp, rfl, rfl, rfl⟩
  | breakOk hp | breakErr hp | mabOk hp | mabErr hp => exact .inr ⟨_, _, rfl, .inl hp⟩
  | finalBreakOk hp | finalBreakErr hp | finalMabOk hp | finalMabErr hp => exact .inr ⟨_, _, rfl, .inr ⟨hfinal hp rfl, hp⟩⟩
  | writeOk hp | writeErr hp => exact .inr ⟨_, _, rfl, .inl hp, rfl⟩
  | zeroOk hp | zeroErr hp => exact .inr ⟨_, _, rfl, .inr hp, rfl⟩
  | closeOk hp | closeErr hp => exact .inr ⟨_, _, rfl, hp⟩
  | _ => exact .inl rfl

/-- Every primitive of the table but `T_OPEN` is issued in a phase that holds the handle (R29, R105). -/
theorem State.holdsHandle_of_mayIssue {op : Prim} (h : s.mayIssue op) (hop : ∀ i, op ≠ .tOpen i) : s.ph.holdsHandle = true := by
  cases op with
  | tOpen i => exact absurd rfl (hop i)
  | tConfigure => obtain ⟨hp | ⟨hp, -⟩, -⟩ := h <;> rw [hp] <;> rfl
  | tEnumerate => obtain ⟨hp, -⟩ := h; rw [hp]; rfl
  | tSetBreak => obtain hp | ⟨-, hp⟩ := h <;> rw [hp] <;> rfl
  | tClearBreak => obtain hp | ⟨-, hp⟩ := h <;> rw [hp] <;> rfl
  | tWrite => obtain ⟨hp | hp, -⟩ := h <;> rw [hp] <;> rfl
  | tClose => have hp : s.ph = .x3Release := h; rw [hp]; rfl
  | tStatus | tReset | tPurge | tRead => exact h.elim

/-- A step logs the errors it raises; no other agent than `SEQ` raises any (R49). -/
theorem step_logs (h : step s = .next t) : s.Logs t := by
  obtain ⟨-, -, hu⟩ | ⟨hm, ha⟩ := step_cases h
  · exact hu.logs
  · obtain ⟨_, _, _, _, _, _, rfl, -⟩ := agentStep_frame hm ha
    exact .none rfl rfl

/-- A step that adds to `TRACE` is one of `SEQ`, which issues by the table of R105. -/
theorem step_issues (h : step s = .next t) :
    t.trace = s.trace ∨ s.seqTurn ∧ ∃ op r, t.trace = s.trace ++ [⟨t.now, op, r⟩] ∧ s.mayIssue op := by
  obtain ⟨ht, hp, hu⟩ | ⟨hm, ha⟩ := step_cases h
  · exact (hu.issues hp).imp_right fun hissue => ⟨ht, hissue⟩
  · obtain ⟨_, _, _, _, _, _, rfl, -⟩ := agentStep_frame hm ha
    exact .inl rfl

end

/-- Settles O39: the clock never decreases, and only `SEQ` logs errors and issues primitives. -/
theorem recordsOnlyGrow : Obligations.RecordsOnlyGrow := by
  intro s t h
  obtain ⟨-, -, hnow⟩ := step_params h
  refine ⟨hnow, step_logs h, ?_⟩
  obtain heq | ⟨-, op, r, heq, -⟩ := step_issues h
  · exact ⟨[], by rw [heq, List.append_nil], Nat.zero_le _, nofun⟩
  · exact ⟨_, heq, le_rfl, fun _ he => List.mem_singleton.1 he ▸ rfl⟩

/-- Settles O40: the event added is the one issued, and under the invariant its phase holds the handle. -/
theorem primitivesIssuedByTheTable : Obligations.PrimitivesIssuedByTheTable := by
  intro s t e h he
  have hne : t.trace ≠ s.trace := fun heq => by simp [heq] at he
  obtain heq | ⟨ht, op, r, heq, hmay⟩ := step_issues h
  · exact absurd heq hne
  · obtain rfl : e = ⟨t.now, op, r⟩ := List.singleton_inj.1 (List.append_cancel_left (he.symm.trans heq))
    exact ⟨ht, hmay, fun hinv hopen _ => hinv.handleHeld.2 (State.holdsHandle_of_mayIssue hmay hopen)⟩

/-! ## Who writes the queues, the endpoints and the buffer -/

section
variable {s t : State}

/-- No phase writes an endpoint flag (R34, R36, R49). -/
theorem PhaseResult.endpoints {now : Nat} (h : PhaseResult now s t) : t.cqTxOpen = s.cqTxOpen ∧ t.rqRxOpen = s.rqRxOpen := by
  cases h with
  | command c rest _ hp hq hc =>
    obtain ⟨-, htx, hrx, -⟩ := hc.keeps
    exact ⟨htx, hrx⟩
  | _ => exact ⟨rfl, rfl⟩

/-- `SEQ` takes from `CQ` only its head, at `S1_DRAIN` (R33, R160). -/
theorem PhaseResult.commandQueue {now : Nat} (h : PhaseResult now s t) : t.cq = s.cq ∨ ∃ c, s.ph = .s1Drain ∧ s.cq = c :: t.cq := by
  cases h with
  | command c rest _ hp hq hc =>
    obtain ⟨hcq, -⟩ := hc.keeps
    exact .inr ⟨c, hp, hcq ▸ hq⟩
  | _ => exact .inl rfl

/-- The one command that sends a response is `ListDevices` (R64, R204). -/
theorem ExecResult.responseQueue {i : Instr} (h : ExecResult s i t) :
    t.rq = s.rq ∨ ∃ l, i = .listDevices ∧ s.rqRxOpen = true ∧ t.rq = s.rq ++ [.deviceList l] := by
  cases h with
  | listSent _ hr | emptySent _ hr => exact .inr ⟨_, rfl, hr, rfl⟩
  | _ => exact .inl rfl

/-- `SEQ` appends to `RQ` only while it executes `ListDevices` (R64). -/
theorem PhaseResult.responseQueue {now : Nat} (h : PhaseResult now s t) :
    t.rq = s.rq ∨
      ∃ l, s.ph = .s1Drain ∧ s.cq.head? = some .listDevices ∧ s.rqRxOpen = true ∧ t.rq = s.rq ++ [.deviceList l] := by
  cases h with
  | command c rest _ hp hq hc =>
    refine hc.responseQueue.imp_right fun ⟨l, hi, ho, hrq⟩ => ⟨l, hp, ?_, ho, hrq⟩
    rw [hq, hi, List.head?_cons]
  | _ => exact .inl rfl

/-- The commands that write the buffer (R200, R203). -/
theorem ExecResult.buffer {i : Instr} (h : ExecResult s i t) :
    t.fb = s.fb ∨ i = .clearFrame ∨ ∃ c v, i = .setChannel c v ∧ 1 ≤ c ∧ c ≤ 512 := by
  cases h with
  | set c v hc => exact .inr (.inr ⟨c, v, rfl, hc⟩)
  | clear => exact .inr (.inl rfl)
  | _ => exact .inl rfl

/-- The phases that write the buffer (R55, R160, R173). -/
theorem PhaseResult.buffer {now : Nat} (h : PhaseResult now s t) : t.fb = s.fb ∨ s.ph = .x1Clear ∨
    s.ph = .s1Drain ∧ (s.cq.head? = some .clearFrame ∨ ∃ c v, s.cq.head? = some (.setChannel c v) ∧ 1 ≤ c ∧ c ≤ 512) := by
  cases h with
  | command c rest _ hp hq hc =>
    rw [hq, List.head?_cons]
    obtain heq | rfl | ⟨n, v, rfl, hn⟩ := hc.buffer
    · exact .inl heq
    · exact .inr (.inr ⟨hp, .inl rfl⟩)
    · exact .inr (.inr ⟨hp, .inr ⟨n, v, rfl, hn⟩⟩)
  | clear hp | clearFinal hp => exact .inr (.inl hp)
  | _ => exact .inl rfl

/-- At a position of the block the phase gives the loop state (R24). -/
theorem State.placed.atPhase {p : Phase} (hs : s.placed) (hp : s.ph = p) : s.atPhase p := ⟨hp ▸ hs.1, hp⟩

end

/-- Settles O41: the frame of another agent's move, and the endpoints that `SEQ` leaves alone. -/
theorem otherAgentsKeepOut : Obligations.OtherAgentsKeepOut := by
  intro s t h
  obtain ⟨ht, -, hu⟩ | ⟨hm, ha⟩ := step_cases h
  · obtain ⟨htx, hrx⟩ : t.cqTxOpen = s.cqTxOpen ∧ t.rqRxOpen = s.rqRxOpen := hu.endpoints
    exact ⟨fun hn => absurd ht hn, fun _ => ⟨htx, hrx⟩, fun hc => htx.trans hc, fun hc => hrx.trans hc⟩
  · obtain ⟨_, _, _, _, _, _, rfl, -, -, -, htx, hrx, -⟩ := agentStep_frame hm ha
    exact ⟨fun _ => rfl, fun ht => absurd ht hm, htx, hrx⟩

/-- Settles O42: `SEQ` pops in `S1_DRAIN`, and of the others only the host's send reaches `CQ`. -/
theorem commandQueueIsFifo : Obligations.CommandQueueIsFifo := by
  intro s t h
  obtain ⟨ht, hs, hu⟩ | ⟨hm, ha⟩ := step_cases h
  · exact hu.commandQueue.imp_right fun ⟨c, hp, hq⟩ => .inr ⟨c, ht, hs.atPhase hp, hq⟩
  · obtain ⟨_, _, _, _, _, _, rfl, -, hcq, -⟩ := agentStep_frame hm ha
    exact hcq.imp_right .inl

/-- Settles O43: `SEQ` appends in `ListDevices`, and of the others only the host's receive step reaches `RQ`. -/
theorem responseQueueIsFifo : Obligations.ResponseQueueIsFifo := by
  intro s t h
  obtain ⟨ht, hs, hu⟩ | ⟨hm, ha⟩ := step_cases h
  · exact hu.responseQueue.imp_right fun ⟨l, hp, hq⟩ => .inl ⟨l, ht, hs.atPhase hp, hq⟩
  · obtain ⟨_, _, _, _, _, _, rfl, -, -, hrq, -⟩ := agentStep_frame hm ha
    exact hrq.imp_right .inr

/-- Settles O44: the phases and commands that write the buffer, and that no other agent does. -/
theorem bufferWrittenOnlyByDrainAndClear : Obligations.BufferWrittenOnlyByDrainAndClear := by
  intro s t h hne
  obtain ⟨ht, hs, hu⟩ | ⟨hm, ha⟩ := step_cases h
  · exact ⟨ht, (hu.buffer.resolve_left hne).imp hs.atPhase fun ⟨hp, hq⟩ => ⟨hs.atPhase hp, hq⟩⟩
  · obtain ⟨_, _, _, _, _, _, rfl, -⟩ := agentStep_frame hm ha
    exact absurd rfl hne

end Sys2Proof.Machine
end

section
/-! PROOFS. Family other, the invariant of the machine: each of its clauses is kept by every phase, and all of them by every step; reset establishes
it (R48). -/

namespace Sys2Proof.Machine

section
variable {s t : State} {i : Instr}

/-- The fields that no command touches, of those `SEQ` owns (R200 to R204). -/
theorem ExecResult.owned (h : ExecResult s i t) :
    t.handle = s.handle ∧ t.devIndex = s.devIndex ∧ t.devOpen = s.devOpen ∧ t.tc = s.tc ∧ t.t0 = s.t0 ∧
      t.cycleStart = s.cycleStart ∧ t.targetMs = s.targetMs := by
  cases h <;> exact ⟨rfl, rfl, rfl, rfl, rfl, rfl, rfl⟩

/-- A command keeps the canonical form of the buffer (R57). -/
theorem ExecResult.bufferWf (h : ExecResult s i t) (hs : s.fb.wf = true) : t.fb.wf = true := by
  cases h with
  | set c v hc => exact Memory.wf_write v hs (Nat.lt_succ_of_le hc.2)
  | clear => rfl
  | _ => exact hs

/-- No command raises `E_READ` (R221). -/
theorem ExecResult.reservedBits (h : ExecResult s i t) (hs : s.err &&& errReserved = 0#16) : t.err &&& errReserved = 0#16 := by
  cases h with
  | bounds | resetErr | listDropped | emptySent => exact errSet_reserved nofun hs
  | emptyDropped => exact errSet_reserved nofun (errSet_reserved nofun hs)
  | _ => exact hs

end

section
variable {now : Nat} {s u : State}

/-! ## The clauses on the position and the buffer -/

/-- No phase writes the parameters or `TARGET_MS` (R14, R28). -/
theorem PhaseResult.params_eq (h : PhaseResult now s u) : u.params = s.params ∧ u.targetMs = s.targetMs := by
  cases h with
  | command c rest _ hp hq hc =>
    obtain ⟨-, -, -, -, -, hparams, -⟩ := hc.keeps
    obtain ⟨-, -, -, -, -, -, htarget⟩ := hc.owned
    exact ⟨hparams, htarget⟩
  | _ => exact ⟨rfl, rfl⟩

/-- `SEQ` keeps to the positions of the block (R24). -/
theorem PhaseResult.placed (h : PhaseResult now s u) (hs : s.placed) : u.placed := by
  obtain ⟨hparams, -⟩ := h.params_eq
  refine ⟨h.loopState hs.1, fun hf => ?_⟩
  rw [hparams]
  obtain hsucc | ⟨hph, -⟩ := h.successor
  · exact (Phase.ofFinalPreamble_of_successor hsucc hf).elim id hs.2
  · exact hs.2 (hph ▸ hf)

/-- `SEQ` keeps the canonical form of the buffer (R57). -/
theorem PhaseResult.bufferWf (h : PhaseResult now s u) (hs : s.fb.wf = true) : u.fb.wf = true := by
  cases h with
  | command c rest _ hp hq hc => exact hc.bufferWf hs
  | clear | clearFinal => rfl
  | _ => exact hs

/-- `SEQ` keeps `FB[0] = 0` (R22). -/
theorem PhaseResult.startCode (h : PhaseResult now s u) (hs : s.fb.read 0 = 0#8) : u.fb.read 0 = 0#8 := by
  cases h with
  | command c rest _ hp hq hc => exact hc.startCode.elim (·.trans hs) id
  | clear | clearFinal => rfl
  | _ => exact hs

/-- The phases after a command: the same `S1_DRAIN`, or `D1_FLUSH` (R160, R201). -/
theorem PhaseResult.ph_of_command {c : Instr} {rest : List Instr} (h : ExecResult { s with cq := rest } c u) (hp : s.ph = .s1Drain) :
    u.ph = .s1Drain ∨ u.ph = .d1Flush :=
  h.position.imp (fun h => h.2.trans hp) And.right

/-- The buffer is all zero before the first drain and after `X1_CLEAR` (R152, R173, R176). -/
theorem PhaseResult.blank (h : PhaseResult now s u) (hs : s.ph.blankBuffer = true → s.fb = []) :
    u.ph.blankBuffer = true → u.fb = [] := by
  cases h with
  | command c rest _ hp hq hc => obtain hph | hph := ph_of_command hc hp <;> rw [hph] <;> exact nofun
  | clear | clearFinal => exact fun _ => rfl
  | openOk hp | openExcl hp | openErr hp | settled hp | probe hp | zeroOk hp | zeroErr hp | closeOk hp | closeErr hp | finalBreakOk hp
  | finalBreakErr hp | finalBreakHeld hp | finalBreakNoHold hp | finalMabOk hp | finalMabErr hp | finalMabHeld hp | finalMabNoHold hp =>
    exact fun _ => hs (by rw [hp]; rfl)
  | settling | breakHolding | mabHolding | yielding | pacing | halt | finalBreakHolding | finalMabHolding => exact hs
  | _ => exact nofun

/-! ## The clauses on the handle and the timing -/

/-- `HANDLE` is open from the success of `I1_OPEN` to `X3_RELEASE` (R29). -/
theorem PhaseResult.handleHeld (h : PhaseResult now s u) (hs : s.handle = .opened ↔ s.ph.holdsHandle = true) :
    u.handle = .opened ↔ u.ph.holdsHandle = true := by
  cases h with
  | command c rest _ hp hq hc =>
    obtain ⟨hhandle, -⟩ := hc.owned
    have hopen : s.handle = .opened := hs.2 (by rw [hp]; rfl)
    refine iff_of_true (hhandle.trans hopen) ?_
    obtain hph | hph := ph_of_command hc hp <;> rw [hph] <;> rfl
  | openOk => exact iff_of_true rfl rfl
  | openExcl hp | openErr hp => exact iff_of_false (fun ho => by simpa [hp, Phase.holdsHandle] using hs.1 ho) nofun
  | closeOk | closeErr => exact iff_of_false nofun nofun
  | settling | breakHolding | mabHolding | yielding | pacing | halt | finalBreakHolding | finalMabHolding => exact hs
  | _ => exact hs.trans (iff_of_true (by simp [*, Phase.holdsHandle]) rfl)

/-- An open handle's index is in `DEV_OPEN` (R43). -/
theorem PhaseResult.ownsDevice (h : PhaseResult now s u) (hs : s.handle = .opened → s.devIndex ∈ s.devOpen) :
    u.handle = .opened → u.devIndex ∈ u.devOpen := by
  cases h with
  | command c rest _ hp hq hc =>
    obtain ⟨hhandle, hindex, hopen, -⟩ := hc.owned
    rw [hhandle, hindex, hopen]
    exact hs
  | openOk => exact fun _ => mem_insertIndex_self _ _
  | closeOk | closeErr => exact nofun
  | _ => exact hs

/-- `TC` is determined from `I4_CONFIG` on and in `Running` (R122, R123). -/
theorem PhaseResult.classified (h : PhaseResult now s u) (hs : s.ls = .running ∨ s.ph = .i4Config → s.tc ≠ .unknown) :
    u.ls = .running ∨ u.ph = .i4Config → u.tc ≠ .unknown := by
  cases h with
  | command c rest _ hp hq hc =>
    obtain ⟨-, -, -, htc, -⟩ := hc.owned
    rw [htc]
    obtain ⟨hls, hph⟩ | ⟨hls, hph⟩ := hc.position <;> rw [hls, hph]
    · exact hs
    · rintro (h | h) <;> cases h
  | probe => exact fun _ => classify_ne_unknown _ _
  | configOk hp => exact fun _ => hs (.inr hp)
  | openExcl | openErr | configErr | flush => rintro (h | h) <;> cases h
  | settling | breakHolding | mabHolding | yielding | pacing | halt | finalBreakHolding | finalMabHolding => exact hs
  | _ => exact fun h => hs (.inl (h.resolve_right nofun))

/-- `TC` is not determined before `I3_PROBE` (R25). -/
theorem PhaseResult.unmeasured (h : PhaseResult now s u) (hs : s.ph.beforeProbe = true → s.tc = .unknown) :
    u.ph.beforeProbe = true → u.tc = .unknown := by
  cases h with
  | command c rest _ hp hq hc => obtain hph | hph := ph_of_command hc hp <;> rw [hph] <;> exact nofun
  | openOk hp | settled hp => exact fun _ => hs (by rw [hp]; rfl)
  | settling | breakHolding | mabHolding | yielding | pacing | halt | finalBreakHolding | finalMabHolding => exact hs
  | _ => exact nofun

/-- A timestamp the block has taken is an earlier reading of the clock (R135). -/
theorem PhaseResult.stamped (h : PhaseResult now s u)
    (hs : (s.handle = .opened → s.t0 ≤ s.now) ∧ (s.ph.inCycle = true → s.cycleStart ≤ s.now)) :
    (u.handle = .opened → u.t0 ≤ u.now) ∧ (u.ph.inCycle = true → u.cycleStart ≤ u.now) := by
  cases h with
  | command c rest _ hp hq hc =>
    obtain ⟨hhandle, -, -, -, ht0, -⟩ := hc.owned
    obtain ⟨-, -, -, hnow, -⟩ := hc.keeps
    rw [hhandle, ht0, hnow]
    refine ⟨hs.1, ?_⟩
    obtain hph | hph := ph_of_command hc hp <;> rw [hph] <;> exact nofun
  | openOk => exact ⟨fun _ => le_rfl, nofun⟩
  | stamp => exact ⟨hs.1, fun _ => le_rfl⟩
  | closeOk | closeErr => exact ⟨nofun, nofun⟩
  | breakOk hp | breakErr hp | breakHeld hp | breakNoHold hp | mabOk hp | mabErr hp | mabHeld hp | mabNoHold hp | writeOk hp
  | writeErr hp => exact ⟨hs.1, fun _ => hs.2 (by rw [hp]; rfl)⟩
  | settling | breakHolding | mabHolding | yielding | pacing | halt | finalBreakHolding | finalMabHolding => exact hs
  | _ => exact ⟨hs.1, nofun⟩

/-! ## The clauses on the errors, the queue and the sleep -/

/-- No phase raises `E_READ`, so the reserved bits of `ERR` stay 0 (R221). -/
theorem PhaseResult.reservedBits (h : PhaseResult now s u) (hs : s.err &&& errReserved = 0#16) : u.err &&& errReserved = 0#16 := by
  cases h with
  | command c rest _ hp hq hc => exact hc.reservedBits hs
  | openExcl | openErr | configErr | breakErr | mabErr | writeErr | zeroErr | closeErr | finalBreakErr | finalMabErr =>
    exact errSet_reserved nofun hs
  | _ => exact hs

/-- `SEQ` queues no command (R33). -/
theorem PhaseResult.mem_cq (h : PhaseResult now s u) {i : Instr} (hi : i ∈ u.cq) : i ∈ s.cq := by
  obtain heq | ⟨c, -, heq⟩ := h.commandQueue
  · exact heq ▸ hi
  · exact heq ▸ List.mem_cons_of_mem c hi

/-- A sleep is in progress only in a phase that sleeps, and after the settle delay only under `Adequate` (R42, R123). -/
theorem PhaseResult.awake (h : PhaseResult now s u)
    (hs : s.wake ≠ none → s.ph.waits = true ∧ (s.ph = .i2Settle ∨ s.tc = .adequate)) :
    u.wake ≠ none → u.ph.waits = true ∧ (u.ph = .i2Settle ∨ u.tc = .adequate) := by
  have hnone {p : Phase} (hp : s.ph = p) (hw : p.waits = false) : ¬s.wake ≠ none := fun h => by
    simpa [hp, hw] using (hs h).1
  cases h with
  | command c rest _ hp hq hc =>
    obtain ⟨-, -, -, -, hwake, -⟩ := hc.keeps
    rw [hwake]
    exact fun h => absurd h (hnone hp rfl)
  | settled | breakHeld | mabHeld | paced | finalBreakHeld | finalMabHeld => exact fun h => absurd rfl h
  | settling hp => exact fun _ => ⟨by rw [hp]; rfl, .inl hp⟩
  | breakHolding hp ht | mabHolding hp ht | finalBreakHolding hp ht | finalMabHolding hp ht => exact fun _ => ⟨by rw [hp]; rfl, .inr ht⟩
  | pacing hp =>
    refine fun h => ⟨by rw [hp]; rfl, .inr ?_⟩
    by_contra hc
    exact h (if_neg hc)
  | yielding | halt => exact hs
  | breakNoHold hp hc | mabNoHold hp hc | finalBreakNoHold hp hc | finalMabNoHold hp hc =>
    exact fun h => absurd (hs h).2 (by simp [hp, hc])
  | openOk hp | openExcl hp | openErr hp | probe hp | configOk hp | configErr hp | drained hp | stamp hp | breakOk hp | breakErr hp
  | mabOk hp | mabErr hp | writeOk hp | writeErr hp | flush hp | clear hp | clearFinal hp | zeroOk hp | zeroErr hp | closeOk hp
  | closeErr hp | finalBreakOk hp | finalBreakErr hp | finalMabOk hp | finalMabErr hp =>
    exact fun h => absurd h (hnone hp rfl)

/-! ## The clause on the trace -/

/-- After the event `e` the trace stands where phase `q` can, from wherever it stands at phase `p` (R180). -/
def Phase.Leads (fp : Bool) (p q : Phase) (e : TraceEntry) : Prop :=
  ∀ m ∈ p.modes fp, ∃ k ∈ q.modes fp, k ∈ m.next fp e

/-- Without an event the trace must stand where the new phase can, too. -/
theorem State.traceShape_of_quiet (hs : s.traceShape) (hparams : u.params = s.params) (htrace : u.trace = s.trace)
    (hmodes : s.ph.modes s.params.finalPreamble ⊆ u.ph.modes s.params.finalPreamble) : u.traceShape := by
  obtain ⟨m, hm, hmem⟩ := hs
  rw [State.traceShape, hparams, htrace]
  exact ⟨m, hmodes hm, hmem⟩

/-- One event keeps the shape of the trace where the phases agree with it. -/
theorem State.traceShape_of_event {e : TraceEntry} (hs : s.traceShape) (hparams : u.params = s.params)
    (htrace : u.trace = s.trace ++ [e]) (hleads : Phase.Leads s.params.finalPreamble s.ph u.ph e) : u.traceShape := by
  obtain ⟨m, hm, hmem⟩ := hs
  obtain ⟨k, hk, hnext⟩ := hleads m hm
  rw [State.traceShape, hparams, htrace]
  exact ⟨k, hk, mem_traceModes_append.2 ⟨m, hmem, hnext⟩⟩

/-- Where a phase stands at one place of the expression, its event has to lead on from there. -/
theorem Phase.Leads.of_mode {fp : Bool} {p q : Phase} {e : TraceEntry} (m k : TraceMode) (hp : p.modes fp = [m]) (hk : k ∈ q.modes fp)
    (hnext : k ∈ m.next fp e) : Phase.Leads fp p q e := by
  intro m' hm'
  rw [hp] at hm'
  exact ⟨k, hk, List.mem_singleton.1 hm' ▸ hnext⟩

/-- The final frame leads on from wherever `X2_ZERO_WRITE` stands (R177). -/
theorem Phase.leads_zeroWrite (fp : Bool) (t : Nat) {b : List Byte} {r : Answer} (hb : b = zeroFrame)
    (hr : r = .ok ∨ ∃ k, r = .err k) : Phase.Leads fp .x2ZeroWrite .x3Release ⟨t, .tWrite b, r⟩ :=
  fun _ hm => ⟨.zeroed, List.mem_singleton_self _, TraceMode.mem_next_zeroWrite hm t hb hr⟩

/-- The assert of a final preamble leads on from wherever `X1_CLEAR` stands (log entry 25). -/
theorem Phase.leads_finalBreak (t : Nat) :
    Phase.Leads true .xpBreak .xpBreakHold ⟨t, .tSetBreak, .ok⟩ ∧
    ∀ k, Phase.Leads true .xpBreak .x2ZeroWrite ⟨t, .tSetBreak, .err k⟩ := by
  refine ⟨fun m hm => ⟨.finalBroken, List.mem_singleton_self _, ?_⟩, fun k m hm => ⟨.finalReady, List.mem_singleton_self _, ?_⟩⟩ <;>
    obtain rfl | hm := List.mem_cons.1 hm
  · exact .tail _ (.head _)
  · exact List.mem_singleton.1 hm ▸ .head _
  · exact .tail _ (.head _)
  · exact List.mem_singleton.1 hm ▸ .head _

/-- A command keeps the trace between two cycles (R180). -/
theorem ExecResult.traceShape {c : Instr} {rest : List Instr} (h : ExecResult { s with cq := rest } c u) (hp : s.ph = .s1Drain)
    (hs : s.traceShape) : u.traceShape := by
  cases h with
  | resetOk | resetErr | listSent | listDropped | emptySent | emptyDropped =>
    refine State.traceShape_of_event hs rfl rfl ?_
    show Phase.Leads _ s.ph s.ph _
    rw [hp]
    exact .of_mode .cycling .cycling rfl (.head _) (.head _)
  | stop =>
    refine State.traceShape_of_quiet hs rfl rfl ?_
    rw [hp]
    exact List.Subset.refl _
  | set | bounds | clear => exact hs

/-- `SEQ` keeps the trace in the language of R180, and standing where its phase says. -/
theorem PhaseResult.traceShape (h : PhaseResult now s u) (hplaced : s.placed) (hblank : s.ph.blankBuffer = true → s.fb = [])
    (hs : s.traceShape) : u.traceShape := by
  have hzero (hp : s.ph = .x2ZeroWrite) : s.fb.frame = zeroFrame := by
    rw [hblank (by rw [hp]; rfl), Memory.frame_nil]
  have hfinal {p : Phase} (hp : s.ph = p) (hf : p.ofFinalPreamble = true) : s.params.finalPreamble = true := hplaced.2 (hp ▸ hf)
  cases h with
  | command c rest _ hp hq hc => exact hc.traceShape hp hs
  | settling | breakHolding | mabHolding | yielding | pacing | halt | finalBreakHolding | finalMabHolding => exact hs
  | settled hp | probe hp | drained hp | stamp hp | breakHeld hp | breakNoHold hp | mabHeld hp | mabNoHold hp | paced hp
  | finalBreakHeld hp | finalBreakNoHold hp | clearFinal hp =>
    exact State.traceShape_of_quiet hs rfl rfl (by rw [hp]; exact List.Subset.refl _)
  | flush hp => exact State.traceShape_of_quiet hs rfl rfl (by rw [hp]; exact fun _ hm => List.mem_cons.2 (.inl (List.mem_singleton.1 hm)))
  | clear hp hf => exact State.traceShape_of_quiet hs rfl rfl (by rw [hp, hf]; exact List.Subset.refl _)
  | finalMabHeld hp | finalMabNoHold hp =>
    exact State.traceShape_of_quiet hs rfl rfl (by rw [hp, hfinal hp rfl]; exact List.Subset.refl _)
  | zeroOk hp => exact State.traceShape_of_event hs rfl rfl (by rw [hp]; exact Phase.leads_zeroWrite _ _ (hzero hp) (.inl rfl))
  | zeroErr hp => exact State.traceShape_of_event hs rfl rfl (by rw [hp]; exact Phase.leads_zeroWrite _ _ (hzero hp) (.inr ⟨_, rfl⟩))
  | finalBreakOk hp =>
    exact State.traceShape_of_event hs rfl rfl (by rw [hp, hfinal hp rfl]; exact (Phase.leads_finalBreak _).1)
  | finalBreakErr hp =>
    exact State.traceShape_of_event hs rfl rfl (by rw [hp, hfinal hp rfl]; exact (Phase.leads_finalBreak _).2 _)
  | finalMabOk hp | finalMabErr hp =>
    exact State.traceShape_of_event hs rfl rfl (by rw [hp, hfinal hp rfl]; exact .of_mode _ _ rfl (.head _) (.head _))
  | configErr hp =>
    exact State.traceShape_of_event hs rfl rfl (by rw [hp]; exact .of_mode _ .closing rfl (.tail _ (.head _)) (.head _))
  | breakOk hp | breakErr hp | openOk hp | openExcl hp | openErr hp | configOk hp | mabOk hp | mabErr hp | writeOk hp | writeErr hp
  | closeOk hp | closeErr hp =>
    exact State.traceShape_of_event hs rfl rfl (by rw [hp]; exact .of_mode _ _ rfl (.head _) (.head _))

/-! ## The invariant -/

/-- Time may pass at the start of a step. -/
theorem State.Inv.begun (hs : s.Inv) : s.begun.Inv :=
  { hs with
    stamped := ⟨fun h => (hs.stamped.1 h).trans (Nat.le_add_right _ _), fun h => (hs.stamped.2 h).trans (Nat.le_add_right _ _)⟩ }

/-- Every phase keeps the invariant. -/
theorem PhaseResult.inv (h : PhaseResult now s u) (hs : s.Inv) : u.Inv where
  position := h.placed hs.position
  bufferWf := h.bufferWf hs.bufferWf
  startCode := h.startCode hs.startCode
  blank := h.blank hs.blank
  handleHeld := h.handleHeld hs.handleHeld
  ownsDevice := h.ownsDevice hs.ownsDevice
  classified := h.classified hs.classified
  unmeasured := h.unmeasured hs.unmeasured
  stamped := h.stamped hs.stamped
  targetPos := hs.targetPos.trans_eq h.params_eq.2.symm
  reservedBits := h.reservedBits hs.reservedBits
  queueWf i hi := h.params_eq.1 ▸ hs.queueWf i (h.mem_cq hi)
  awake := h.awake hs.awake
  shape := h.traceShape hs.position hs.blank hs.shape

/-- Every other agent keeps the invariant: it queues only what the decoder gives, and the clock only grows (R49). -/
theorem agentStep_inv {m : Move} (hm : m ≠ .seq) (h : agentStep m s = .next u) (hs : s.Inv) : u.Inv := by
  obtain ⟨cq, rq, tx, rx, time, dev, rfl, hnow, hcq, -, -, -, hdev⟩ := agentStep_frame hm h
  refine { hs with
    ownsDevice := fun ho => hdev ho (hs.ownsDevice ho)
    stamped := ⟨fun h => (hs.stamped.1 h).trans hnow, fun h => (hs.stamped.2 h).trans hnow⟩
    queueWf := fun i (hi : i ∈ cq) => ?_ }
  obtain rfl | ⟨w, j, -, hj, -, rfl⟩ := hcq
  · exact hs.queueWf i hi
  · obtain hold | hnew := List.mem_append.1 hi
    · exact hs.queueWf i hold
    · rw [List.mem_singleton.1 hnew]
      exact CmdFormat.decode_wf hj

/-- Every step keeps the invariant. -/
theorem step_inv (hs : s.Inv) (h : step s = .next u) : u.Inv := by
  obtain ⟨-, -, hu⟩ | ⟨hm, ha⟩ := step_cases h
  · exact hu.inv hs.begun
  · exact agentStep_inv hm ha { hs with }

/-- From a position of the block every step answers a next state. -/
theorem step_answers (hs : s.placed) : ∃ t, step s = .next t := by
  by_cases ht : s.seqTurn
  · obtain ⟨t, e, -⟩ := phaseStep_cases s.now s.begun
    exact ⟨t, (step_seq ht hs).trans e⟩
  · unfold step
    cases hm : s.nextMove with
    | seq => exact absurd hm ht
    | _ => exact ⟨_, rfl⟩

end

/-- Settles O47: progress at a position of the block, and the clauses of the invariant one by one. -/
theorem stepKeepsTheInvariant : Obligations.StepKeepsTheInvariant :=
  fun _ hs => ⟨step_answers hs.position, fun _ h => step_inv hs h⟩

/-- The invariant in the state of R48, whatever `T0` and `CYCLE_START` hold. -/
theorem State.fresh_inv (c : Latches) (p : Params) (now : Nat) (dev : List Word) (sched : List Move) (draws : List Draw)
    (t0 cycleStart : Nat) :
    State.Inv { State.fresh c p now dev with sched := sched, draws := draws, t0 := t0, cycleStart := cycleStart } where
  position := ⟨rfl, nofun⟩
  bufferWf := rfl
  startCode := rfl
  blank _ := rfl
  handleHeld := iff_of_false nofun nofun
  ownsDevice := nofun
  classified := by rintro (h | h) <;> cases h
  unmeasured _ := rfl
  stamped := ⟨nofun, nofun⟩
  targetPos := one_le_targetMsOf _
  reservedBits := BitVec.zero_and
  queueWf := nofun
  awake h := absurd rfl h
  shape := ⟨.start, .head _, .head _⟩

/-- Settles O46: reset answers the state of R48, and `State.reset` is one of these. -/
theorem resetEstablishesTheInvariant : Obligations.ResetEstablishesTheInvariant := by
  refine ⟨State.fresh_inv Config.latches Config.params 0 [] [] [] 0 0, fun c p now dev sched draws t0 cycleStart s hs => ?_⟩
  obtain ⟨-, rfl⟩ := create_eq hs
  exact State.fresh_inv c p now dev sched draws t0 cycleStart

end Sys2Proof.Machine
end

section
/-! PROOFS. Family other, the language of `TRACE` (R180): its transitions, what a place in the expression says of the trace read so far, and
with the invariant what the traces of the block look like (R171, R177). -/

namespace Sys2Proof.Machine

/-! ## The transitions of the expression -/

section
variable {fp : Bool} {e : TraceEntry} {k m : TraceMode}

/-- The transitions of the expression of R180 on the event `e`, and those of a final preamble (log entry 25). -/
inductive TraceStep (fp : Bool) (e : TraceEntry) : TraceMode → TraceMode → Prop
  | openOk (i : Word) : e.op = .tOpen i → e.result = .ok → TraceStep fp e .start .opened
  | openErr (i : Word) : e.op = .tOpen i → e.result.isErr = true → TraceStep fp e .start .ended
  | configOk (l : LineCfg) (r w : Word) : e.op = .tConfigure l r w → TraceStep fp e .opened .cycling
  | configErr (l : LineCfg) (r w : Word) : e.op = .tConfigure l r w → TraceStep fp e .opened .closing
  | reset (l : LineCfg) (r w : Word) : e.op = .tConfigure l r w → TraceStep fp e .cycling .cycling
  | enumerate : e.op = .tEnumerate → TraceStep fp e .cycling .cycling
  | breakOk : e.op = .tSetBreak → e.result = .ok → TraceStep fp e .cycling .broken
  | breakErr : e.op = .tSetBreak → TraceStep fp e .cycling .cycling
  | mabOk : e.op = .tClearBreak → e.result = .ok → TraceStep fp e .broken .marking
  | mabErr : e.op = .tClearBreak → e.result.isErr = true → TraceStep fp e .broken .cycling
  | write (b : List Byte) : e.op = .tWrite b → TraceStep fp e .marking .cycling
  | finalBreakOk (m : TraceMode) : m = .cycling ∨ m = .closing → e.op = .tSetBreak → TraceStep fp e m .finalBroken
  | finalBreakErr (m : TraceMode) : m = .cycling ∨ m = .closing → e.op = .tSetBreak → TraceStep fp e m .finalReady
  | finalMab : e.op = .tClearBreak → TraceStep fp e .finalBroken .finalReady
  | zero (m : TraceMode) : m = .cycling ∨ m = .closing ∨ m = .finalReady → e.op = .tWrite zeroFrame → TraceStep fp e m .zeroed
  | close : e.op = .tClose → TraceStep fp e .zeroed .ended

/-- The continuation of a primitive that carries no data is that of `Ok` or that of `Err` (R91). -/
theorem TraceEntry.mem_branch {a b : TraceMode} (h : k ∈ e.branch a b) : (e.result = .ok ∧ k = a) ∨ (e.result.isErr = true ∧ k = b) := by
  unfold TraceEntry.branch at h
  cases hr : e.result <;> simp_all [Answer.isErr]

/-- An enumeration, whatever its answer, leads back between two cycles (R103). -/
theorem TraceEntry.mem_afterEnumerate (h : k ∈ e.afterEnumerate) : k = .cycling := by
  unfold TraceEntry.afterEnumerate at h
  cases hr : e.result <;> simp_all

/-- The final frame is the all-zero one (R177). -/
theorem TraceEntry.mem_finalFrame {b : List Byte} (h : k ∈ e.finalFrame b) : b = zeroFrame ∧ k = .zeroed := by
  unfold TraceEntry.finalFrame at h
  split at h
  · rename_i hb
    obtain ⟨-, hk⟩ | ⟨-, hk⟩ := TraceEntry.mem_branch h <;> exact ⟨hb, hk⟩
  · cases h

/-- The events a final preamble or a final frame can begin with, between two cycles or after a failed configuration (R177, log entry 25). -/
theorem TraceStep.of_tail (hm : m = .cycling ∨ m = .closing) {b : List Byte} :
    (e.op = .tSetBreak → (k ∈ if fp then e.branch .finalBroken .finalReady else []) → TraceStep fp e m k) ∧
    (e.op = .tWrite b → (k ∈ if fp then [] else e.finalFrame b) → TraceStep fp e m k) := by
  refine ⟨fun hop h => ?_, fun hop h => ?_⟩
  · cases fp
    · cases h
    · obtain ⟨-, rfl⟩ | ⟨-, rfl⟩ := TraceEntry.mem_branch h
      · exact .finalBreakOk m hm hop
      · exact .finalBreakErr m hm hop
  · cases fp
    · obtain ⟨rfl, rfl⟩ := TraceEntry.mem_finalFrame h
      exact .zero m (hm.imp_right .inl) hop
    · cases h

/-- Reading one event is one of these transitions. -/
theorem TraceStep.of_mem_next (h : k ∈ m.next fp e) : TraceStep fp e m k := by
  cases m with
  | start =>
    simp only [TraceMode.next] at h
    split at h
    · rename_i i hop
      obtain ⟨hr, rfl⟩ | ⟨hr, rfl⟩ := TraceEntry.mem_branch h
      · exact .openOk i hop hr
      · exact .openErr i hop hr
    · cases h
  | opened =>
    simp only [TraceMode.next] at h
    split at h
    · rename_i hop
      obtain ⟨-, rfl⟩ | ⟨-, rfl⟩ := TraceEntry.mem_branch h
      · exact .configOk _ _ _ hop
      · exact .configErr _ _ _ hop
    · cases h
  | cycling =>
    simp only [TraceMode.next] at h
    split at h
    · rename_i hop
      obtain ⟨-, rfl⟩ | ⟨-, rfl⟩ := TraceEntry.mem_branch h <;> exact .reset _ _ _ hop
    · rename_i hop
      obtain rfl := TraceEntry.mem_afterEnumerate h
      exact .enumerate hop
    · rename_i hop
      obtain h | h := List.mem_append.1 h
      · obtain ⟨hr, rfl⟩ | ⟨-, rfl⟩ := TraceEntry.mem_branch h
        · exact .breakOk hop hr
        · exact .breakErr hop
      · exact (TraceStep.of_tail (.inl rfl) (b := [])).1 hop h
    · rename_i hop
      exact (TraceStep.of_tail (.inl rfl)).2 hop h
    · cases h
  | broken =>
    simp only [TraceMode.next] at h
    split at h
    · rename_i hop
      obtain ⟨hr, rfl⟩ | ⟨hr, rfl⟩ := TraceEntry.mem_branch h
      · exact .mabOk hop hr
      · exact .mabErr hop hr
    · cases h
  | marking =>
    simp only [TraceMode.next] at h
    split at h
    · rename_i hop
      obtain ⟨-, rfl⟩ | ⟨-, rfl⟩ := TraceEntry.mem_branch h <;> exact .write _ hop
    · cases h
  | closing =>
    simp only [TraceMode.next] at h
    split at h
    · rename_i hop
      exact (TraceStep.of_tail (.inr rfl) (b := [])).1 hop h
    · rename_i hop
      exact (TraceStep.of_tail (.inr rfl)).2 hop h
    · cases h
  | finalBroken =>
    simp only [TraceMode.next] at h
    split at h
    · rename_i hop
      obtain ⟨-, rfl⟩ | ⟨-, rfl⟩ := TraceEntry.mem_branch h <;> exact .finalMab hop
    · cases h
  | finalReady =>
    simp only [TraceMode.next] at h
    split at h
    · rename_i hop
      obtain ⟨rfl, rfl⟩ := TraceEntry.mem_finalFrame h
      exact .zero _ (.inr (.inr rfl)) hop
    · cases h
  | zeroed =>
    simp only [TraceMode.next] at h
    split at h
    · rename_i hop
      obtain ⟨-, rfl⟩ | ⟨-, rfl⟩ := TraceEntry.mem_branch h <;> exact .close hop
    · cases h
  | ended => cases h

/-- Nothing follows the end of the expression. -/
theorem TraceStep.ne_ended (h : TraceStep fp e m k) : m ≠ .ended := by
  rintro rfl
  cases h with
  | finalBreakOk _ hm | finalBreakErr _ hm | zero _ hm => simp at hm

/-- A release leads to the end of the expression. -/
theorem TraceStep.eq_ended_of_close (h : TraceStep fp e m k) (he : e.op = .tClose) : k = .ended := by
  cases h <;> simp_all

/-- A successful deassert leads on to the write of a preamble (R169). -/
theorem TraceStep.of_clearBreak (h : TraceStep fp e m k) (he : e.op = .tClearBreak) (hr : e.result = .ok) :
    k = .marking ∨ k = .finalReady := by
  cases h <;> simp_all [Answer.isErr]

end

/-! ## What a place in the expression says of the trace -/

section
variable {fp : Bool} {l : List TraceEntry} {k : TraceMode}

/-- Where a trace stands after its last event, it came to by a transition from where it stood before. -/
theorem mem_traceModes_cases (h : k ∈ traceModes fp l) :
    (l = [] ∧ k = .start) ∨ ∃ l' e m, l = l' ++ [e] ∧ m ∈ traceModes fp l' ∧ TraceStep fp e m k := by
  obtain rfl | ⟨l', e, rfl⟩ := l.eq_nil_or_concat'
  · exact .inl ⟨rfl, List.mem_singleton.1 h⟩
  · obtain ⟨m, hm, hk⟩ := mem_traceModes_append.1 h
    exact .inr ⟨l', e, m, rfl, hm, .of_mem_next hk⟩

/-- A trace at the start of the expression is empty. -/
theorem eq_nil_of_start (h : .start ∈ traceModes fp l) : l = [] := by
  obtain ⟨hl, -⟩ | ⟨_, _, _, _, _, hstep⟩ := mem_traceModes_cases h
  · exact hl
  · cases hstep

/-- A trace after `open+` is that event alone. -/
theorem eq_singleton_of_opened (h : .opened ∈ traceModes fp l) : ∃ e, l = [e] := by
  obtain ⟨-, hk⟩ | ⟨l', e, m, rfl, hm, hstep⟩ := mem_traceModes_cases h
  · cases hk
  · cases hstep
    obtain rfl := eq_nil_of_start hm
    exact ⟨e, rfl⟩

/-- A trace after `sb+` ends with that event. -/
theorem eq_append_of_broken (h : .broken ∈ traceModes fp l) :
    ∃ (l' : List TraceEntry) (e : TraceEntry), l = l' ++ [e] ∧ e.op = .tSetBreak ∧ e.result = .ok := by
  obtain ⟨-, hk⟩ | ⟨l', e, m, rfl, -, hstep⟩ := mem_traceModes_cases h
  · cases hk
  · cases hstep with
    | breakOk hop hr => exact ⟨l', e, rfl, hop, hr⟩

/-- A trace after `sb+ cb+` ends with these events. -/
theorem eq_append_of_marking (h : .marking ∈ traceModes fp l) : ∃ (l' : List TraceEntry) (a b : TraceEntry), l = l' ++ [a, b] ∧
    a.op = .tSetBreak ∧ a.result = .ok ∧ b.op = .tClearBreak ∧ b.result = .ok := by
  obtain ⟨-, hk⟩ | ⟨l', b, m, rfl, hm, hstep⟩ := mem_traceModes_cases h
  · cases hk
  · cases hstep with
    | mabOk hop hr =>
      obtain ⟨l'', a, rfl, hopa, hra⟩ := eq_append_of_broken hm
      exact ⟨l'', a, b, by rw [List.append_assoc]; rfl, hopa, hra, hop, hr⟩

/-- Between two cycles, or after a failed configuration, the last event of a trace is no successful deassert. -/
theorem not_clearBreak_of_cycling {e : TraceEntry} (h : .cycling ∈ traceModes fp l ∨ .closing ∈ traceModes fp l)
    (he : l.getLast? = some e) (hop : e.op = .tClearBreak) : e.result ≠ .ok := by
  intro hr
  obtain ⟨l', rfl⟩ := List.getLast?_eq_some_iff.1 he
  obtain h | h := h <;> obtain ⟨m, -, hnext⟩ := mem_traceModes_append.1 h
  · exact absurd ((TraceStep.of_mem_next hnext).of_clearBreak hop hr) (by simp)
  · exact absurd ((TraceStep.of_mem_next hnext).of_clearBreak hop hr) (by simp)

/-- Before the trace has ended there is no release in it. -/
theorem op_ne_close_of_not_ended (h : k ∈ traceModes fp l) (hk : k ≠ .ended) : ∀ g ∈ l, g.op ≠ .tClose := by
  induction l using List.reverseRecOn generalizing k with
  | nil => exact nofun
  | append_singleton l e ih =>
    obtain ⟨m, hm, hnext⟩ := mem_traceModes_append.1 h
    have hstep := TraceStep.of_mem_next hnext
    intro g hg
    obtain hg | hg := List.mem_append.1 hg
    · exact ih hm hstep.ne_ended g hg
    · obtain rfl := List.mem_singleton.1 hg
      exact fun hop => hk (hstep.eq_ended_of_close hop)

/-- A trace that has ended is one failed open, or ends with the all-zero frame and the only release. -/
theorem trace_of_ended (h : .ended ∈ traceModes fp l) :
    (∃ (e : TraceEntry) (i : Word), l = [e] ∧ e.op = .tOpen i ∧ e.result.isErr = true) ∨
    (∃ (l' : List TraceEntry) (e f : TraceEntry), l = l' ++ [e, f] ∧ e.op = .tWrite zeroFrame ∧ f.op = .tClose ∧
      ∀ g ∈ l', g.op ≠ .tClose) := by
  obtain ⟨-, hk⟩ | ⟨l', f, m, rfl, hm, hstep⟩ := mem_traceModes_cases h
  · cases hk
  cases hstep with
  | openErr i hop hr =>
    obtain rfl := eq_nil_of_start hm
    exact .inl ⟨f, i, rfl, hop, hr⟩
  | close hopf =>
    obtain ⟨-, hk⟩ | ⟨l'', e, m, rfl, hm, hstep⟩ := mem_traceModes_cases hm
    · cases hk
    cases hstep with
    | zero m hmode hop =>
      refine .inr ⟨l'', e, f, by rw [List.append_assoc]; rfl, hop, hopf, op_ne_close_of_not_ended hm ?_⟩
      rintro rfl
      simp at hmode

end

/-! ## The traces of the block -/

/-- At a phase with one place in the expression the trace stands there. -/
theorem State.Inv.mode {s : State} {p : Phase} {m : TraceMode} (hs : s.Inv) (hp : s.ph = p)
    (hm : p.modes s.params.finalPreamble = [m]) : m ∈ traceModes s.params.finalPreamble s.trace := by
  obtain ⟨k, hk, hmem⟩ := hs.shape
  rw [hp, hm] at hk
  exact List.mem_singleton.1 hk ▸ hmem

/-- Settles O58: at `X4_HALT` the trace has ended. -/
theorem haltedTraceEndsWithZeroFrameAndRelease : Obligations.HaltedTraceEndsWithZeroFrameAndRelease :=
  fun _ hs hp => trace_of_ended (hs.mode hp.2 rfl)

/-- Settles O59: at `S7_WRITE` the trace stands after `sb+ cb+`. -/
theorem everyFrameHasAPreamble : Obligations.EveryFrameHasAPreamble :=
  fun _ _ _ hs hp _ _ => eq_append_of_marking (hs.mode hp rfl)

/-- Settles O60: the invariant holds at reset and in every run, and its clause on the trace gives a place of the expression. -/
theorem traceStaysInTheLanguage : Obligations.TraceStaysInTheLanguage := by
  intro c p now dev sched draws s t k hs hrun
  obtain ⟨-, rfl⟩ := create_eq hs
  have hinv := State.fresh_inv c p now dev sched draws 0 0
  obtain ⟨ht, hparams⟩ : t.Inv ∧ t.params = p :=
    runs_induction (P := fun s => s.Inv ∧ s.params = p)
      (fun s t ⟨hs, hp⟩ h => ⟨step_inv hs h, (step_params h).1.trans hp⟩) ⟨hinv, rfl⟩ hrun
  obtain ⟨m, -, hmem⟩ := ht.shape
  rw [hparams] at hmem
  exact ⟨ht.shape, List.ne_nil_of_mem hmem⟩

end Sys2Proof.Machine
end

section
/-! PROOFS. Family other, the preamble's spacing under `Adequate` (R169): what each phase of a preamble keeps for it, and that every step keeps it. -/

namespace Sys2Proof.Machine

/-! ## Spacing of one more event -/

/-- What R169 asks of two events in succession. -/
def SpacedPair (hold mab : Nat) (e f : TraceEntry) : Prop :=
  (e.op = .tSetBreak → e.result = .ok → f.op = .tClearBreak → e.t + hold ≤ f.t) ∧
  (e.op = .tClearBreak → e.result = .ok → (∃ b, f.op = .tWrite b) → e.t + mab ≤ f.t)

/-- A spaced trace stays so with one more event, if the last two are. -/
theorem spaced_append {hold mab : Nat} {l : List TraceEntry} {f : TraceEntry} (hl : spaced hold mab l)
    (hf : ∀ e, l.getLast? = some e → SpacedPair hold mab e f) : spaced hold mab (l ++ [f]) := by
  induction l with
  | nil => trivial
  | cons a l ih =>
    cases l with
    | nil =>
      obtain ⟨hset, hclear⟩ := hf a rfl
      exact ⟨hset, hclear, trivial⟩
    | cons b l =>
      obtain ⟨hset, hclear, hl⟩ := hl
      exact ⟨hset, hclear, ih hl fun e he => hf e (by rwa [List.getLast?_cons_cons])⟩

/-! ## What a phase keeps -/

/-- What the phase of a state keeps for the spacing: the clause of `State.preambleSpaced` on that phase. -/
def State.phaseHeld (s : State) : Prop :=
  match s.ph with
  | .s4BreakHold | .xpBreakHold => s.heldSince .tSetBreak s.params.breakHoldUs
  | .s5Mab | .xpMab => s.heldFor .tSetBreak s.params.breakHoldUs
  | .s6MabHold | .xpMabHold => s.heldSince .tClearBreak s.params.mabHoldUs
  | .s7Write => s.heldFor .tClearBreak s.params.mabHoldUs
  | .x2ZeroWrite => ∀ e, s.trace.getLast? = some e → e.op = .tClearBreak → e.result = .ok → e.t + s.params.mabHoldUs ≤ s.now
  | _ => True

section
variable {s u : State}

/-- The spacing of a state is that of its trace, and what its phase keeps. -/
theorem State.preambleSpaced_iff : s.preambleSpaced ↔
    (s.tc = .adequate → spaced s.params.breakHoldUs s.params.mabHoldUs s.trace ∧ s.phaseHeld) := by
  unfold State.preambleSpaced State.phaseHeld
  cases s.ph <;> simp

/-- What a hold keeps is kept as time passes. -/
theorem State.heldSince.mono {op : Prim} {hold : Nat} (h : s.heldSince op hold) (htrace : u.trace = s.trace)
    (hwake : u.wake = s.wake) (hnow : s.now ≤ u.now) : u.heldSince op hold := by
  obtain ⟨e, he, hop, hr, ht, hw⟩ := h
  exact ⟨e, htrace ▸ he, hop, hr, ht.trans hnow, hwake ▸ hw⟩

/-- A hold that is over stays over. -/
theorem State.heldFor.mono {op : Prim} {hold : Nat} (h : s.heldFor op hold) (htrace : u.trace = s.trace) (hnow : s.now ≤ u.now) :
    u.heldFor op hold := by
  obtain ⟨e, he, hop, hr, ht⟩ := h
  exact ⟨e, htrace ▸ he, hop, hr, ht.trans hnow⟩

/-- What a phase keeps is kept as time passes. -/
theorem State.phaseHeld.mono (h : s.phaseHeld) (hph : u.ph = s.ph) (hparams : u.params = s.params) (htrace : u.trace = s.trace)
    (hwake : u.wake = s.wake) (hnow : s.now ≤ u.now) : u.phaseHeld := by
  unfold State.phaseHeld at h ⊢
  rw [hph, hparams]
  split <;> rename_i hp <;> simp only [hp] at h
  case h_1 | h_2 | h_5 | h_6 => exact h.mono htrace hwake hnow
  case h_3 | h_4 | h_7 => exact h.mono htrace hnow
  case h_8 => exact fun e he hop hr => (h e (htrace ▸ he) hop hr).trans hnow
  case h_9 => trivial

/-- A sleep that counts from the last event ends no earlier than its length after it (R42). -/
theorem State.heldSince.le_wakeTime {op : Prim} {hold : Nat} (h : s.heldSince op hold) :
    ∃ e, s.trace.getLast? = some e ∧ e.op = op ∧ e.result = .ok ∧ e.t ≤ s.now ∧ e.t + hold ≤ s.wakeTime s.now hold := by
  obtain ⟨e, he, hop, hr, ht, hw⟩ := h
  refine ⟨e, he, hop, hr, ht, ?_⟩
  cases hwake : s.wake with
  | none => simpa [State.wakeTime, hwake] using ht
  | some w => simpa [State.wakeTime, hwake] using hw w hwake

/-- The sleep of a hold going on still counts from the last event. -/
theorem State.heldSince.holding {op : Prim} {hold : Nat} (h : s.heldSince op hold) (htrace : u.trace = s.trace)
    (hwake : u.wake = some (s.wakeTime s.now hold)) (hnow : s.now ≤ u.now) : u.heldSince op hold := by
  obtain ⟨e, he, hop, hr, ht, hw⟩ := h.le_wakeTime
  refine ⟨e, htrace ▸ he, hop, hr, ht.trans hnow, fun w h => ?_⟩
  obtain rfl : s.wakeTime s.now hold = w := Option.some.inj (hwake.symm.trans h)
  exact hw

/-- The hold is over once the end of its sleep is reached. -/
theorem State.heldSince.held {op : Prim} {hold : Nat} (h : s.heldSince op hold) (htrace : u.trace = s.trace)
    (hnow : s.wakeTime s.now hold ≤ u.now) : u.heldFor op hold := by
  obtain ⟨e, he, hop, hr, -, hw⟩ := h.le_wakeTime
  exact ⟨e, htrace ▸ he, hop, hr, hw.trans hnow⟩

/-- A hold begins with the event it counts from, before any sleep. -/
theorem State.heldSince_of_event {op : Prim} {hold : Nat} {l : List TraceEntry} (htrace : u.trace = l ++ [⟨u.now, op, .ok⟩])
    (hwake : u.wake = none) : u.heldSince op hold := by
  refine ⟨_, by rw [htrace, List.getLast?_concat], rfl, rfl, le_rfl, fun w h => ?_⟩
  rw [hwake] at h
  cases h

/-- No sleep is in progress in a phase that does not wait (R42). -/
theorem State.Inv.wake_none {p : Phase} (hs : s.Inv) (hp : s.ph = p) (hw : p.waits = false) : s.wake = none := by
  by_contra hawake
  obtain ⟨hwaits, -⟩ := hs.awake hawake
  rw [hp, hw] at hwaits
  cases hwaits

/-- A hold that is over allows the next frame. -/
theorem State.heldFor.le_now {op : Prim} {hold : Nat} (h : s.heldFor op hold) {e : TraceEntry} (he : s.trace.getLast? = some e) :
    e.op = op ∧ e.t + hold ≤ s.now := by
  obtain ⟨f, hf, hop, -, ht⟩ := h
  obtain rfl : f = e := Option.some.inj (hf.symm.trans he)
  exact ⟨hop, ht⟩

/-! ## What a step keeps -/

/-- The time of a step passes before the phase acts (R41, V-SEQ). -/
theorem PhaseResult.now_eq {now : Nat} (h : PhaseResult now s u) : u.now = s.now := by
  cases h with
  | command c rest _ hp hq hc =>
    obtain ⟨-, -, -, hnow, -⟩ := hc.keeps
    exact hnow
  | _ => rfl

/-- `TC` is written by the probe alone, which adds nothing to the trace (R25, R122). -/
theorem PhaseResult.tc_eq {now : Nat} (h : PhaseResult now s u) : u.tc = s.tc ∨ s.ph = .i3Probe ∧ u.trace = s.trace := by
  cases h with
  | command c rest _ hp hq hc =>
    obtain ⟨-, -, -, htc, -⟩ := hc.owned
    exact .inl htc
  | probe hp => exact .inr ⟨hp, rfl⟩
  | _ => exact .inl rfl

/-- A deassert or a frame issued under `Adequate` comes late enough after the event before it. -/
theorem State.spacedPair_of_mayIssue {op : Prim} {r : Answer} {now : Nat} (h : s.phaseHeld) (hop : s.mayIssue op) (hnow : s.now ≤ now)
    {e : TraceEntry} (he : s.trace.getLast? = some e) : SpacedPair s.params.breakHoldUs s.params.mabHoldUs e ⟨now, op, r⟩ := by
  unfold State.phaseHeld at h
  refine ⟨fun _ _ hclear => ?_, fun hclear hr hwrite => ?_⟩
  · obtain rfl : op = .tClearBreak := hclear
    obtain hp | ⟨-, hp⟩ := hop <;> rw [hp] at h <;> exact (h.le_now he).2.trans hnow
  · obtain ⟨b, hb⟩ := hwrite
    obtain rfl : op = .tWrite b := hb
    obtain ⟨hp | hp, -⟩ := hop <;> rw [hp] at h
    · exact (h.le_now he).2.trans hnow
    · exact (h e he hclear hr).trans hnow

/-- `SEQ` keeps the trace spaced under `Adequate`: what the new event needs, its phase has kept. -/
theorem PhaseResult.spaced (h : PhaseResult s.now s.begun u) (hs : s.Inv) (hsp : s.preambleSpaced) (hc : u.tc = .adequate) :
    Machine.spaced s.params.breakHoldUs s.params.mabHoldUs u.trace := by
  obtain htc | ⟨hp, htrace⟩ := h.tc_eq
  · obtain ⟨hspaced, hheld⟩ := State.preambleSpaced_iff.1 hsp (htc.symm.trans hc)
    obtain htrace | ⟨op, r, htrace, hop⟩ := h.issues hs.position
    · rw [htrace]
      exact hspaced
    · rw [htrace]
      exact spaced_append hspaced fun e he => State.spacedPair_of_mayIssue hheld hop (h.now_eq ▸ Nat.le_add_right _ _) he
  · obtain ⟨e, he⟩ := eq_singleton_of_opened (hs.mode hp rfl)
    rw [htrace, State.begun_trace, he]
    trivial

/-- `SEQ` keeps, phase by phase, what the next event of a preamble needs. -/
theorem PhaseResult.phaseHeld (h : PhaseResult s.now s.begun u) (hs : s.Inv) (hsp : s.preambleSpaced) (hc : u.tc = .adequate) :
    u.phaseHeld := by
  have hnow : s.now ≤ s.begun.now := Nat.le_add_right _ _
  have hheld (htc : s.tc = .adequate) : s.phaseHeld := (State.preambleSpaced_iff.1 hsp htc).2
  unfold State.phaseHeld at hheld
  cases h with
  | command c rest _ hp hq hcmd =>
    unfold State.phaseHeld
    obtain hph | hph := ph_of_command hcmd hp <;> rw [hph] <;> trivial
  | breakOk hp | finalBreakOk hp | mabOk hp | finalMabOk hp => exact State.heldSince_of_event rfl (hs.wake_none hp rfl)
  | breakHolding hp ht | finalBreakHolding hp ht | mabHolding hp ht | finalMabHolding hp ht =>
    have hp : s.ph = _ := hp
    have hheld := hheld ht
    unfold State.phaseHeld
    simp only [hp, State.begun_ph] at hheld ⊢
    exact hheld.holding rfl rfl hnow
  | breakHeld hp ht hw | finalBreakHeld hp ht hw | mabHeld hp ht hw =>
    have hp : s.ph = _ := hp
    have hheld := hheld ht
    rw [hp] at hheld
    exact hheld.held rfl hw
  | finalMabHeld hp ht hw =>
    have hp : s.ph = _ := hp
    have hheld := hheld ht
    rw [hp] at hheld
    exact fun e he _ _ => ((hheld.held (u := s.begun) rfl hw).le_now he).2
  | breakNoHold hp ht | mabNoHold hp ht | finalBreakNoHold hp ht | finalMabNoHold hp ht => exact absurd hc ht
  | clear hp =>
    have hlast : .cycling ∈ traceModes s.params.finalPreamble s.trace ∨ .closing ∈ traceModes s.params.finalPreamble s.trace := by
      obtain ⟨m, hm, hmem⟩ := hs.shape
      rw [show s.ph = .x1Clear from hp] at hm
      obtain rfl | hm := List.mem_cons.1 hm
      · exact .inl hmem
      · exact .inr (List.mem_singleton.1 hm ▸ hmem)
    exact fun e he hop hr => absurd hr (not_clearBreak_of_cycling hlast he hop)
  | finalBreakErr hp =>
    intro e he hop
    obtain rfl : _ = e := Option.some.inj ((List.getLast?_concat ..).symm.trans he)
    cases hop
  | finalMabErr hp =>
    intro e he _ hr
    obtain rfl : _ = e := Option.some.inj ((List.getLast?_concat ..).symm.trans he)
    cases hr
  | settling hp | yielding hp | pacing hp | halt hp =>
    have hp : s.ph = _ := hp
    unfold State.phaseHeld
    simp only [hp, State.begun_ph]
  | _ => trivial

/-- Time passing keeps the spacing. -/
theorem State.preambleSpaced.mono (h : s.preambleSpaced) (hph : u.ph = s.ph) (hparams : u.params = s.params) (htc : u.tc = s.tc)
    (htrace : u.trace = s.trace) (hwake : u.wake = s.wake) (hnow : s.now ≤ u.now) : u.preambleSpaced := by
  refine State.preambleSpaced_iff.2 fun hc => ?_
  obtain ⟨hspaced, hheld⟩ := State.preambleSpaced_iff.1 h (htc ▸ hc)
  rw [hparams, htrace]
  exact ⟨hspaced, hheld.mono hph hparams htrace hwake hnow⟩

end

/-- Settles O49: `SEQ` keeps the spacing by what each phase keeps, and for the other agents only time passes. -/
theorem preambleKeepsItsSpacing : Obligations.PreambleKeepsItsSpacing := by
  intro s t hs hsp h
  obtain ⟨-, -, hu⟩ | ⟨hm, ha⟩ := step_cases h
  · refine State.preambleSpaced_iff.2 fun hc => ⟨?_, hu.phaseHeld hs hsp hc⟩
    rw [(step_params h).1]
    exact hu.spaced hs hsp hc
  · obtain ⟨_, _, _, _, _, _, rfl, hnow, -⟩ := agentStep_frame hm ha
    exact hsp.mono rfl rfl rfl rfl rfl hnow

end Sys2Proof.Machine
end

section
/-! PROOFS. Family other, safety in every run: what is never written again (R25, R176), how long a sleep and a cycle last (R42, R136), and what is
issued after a `Stop` (R178). Each is an invariant of the run, kept by every step. -/

namespace Sys2Proof.Machine

/-! ## The timing class -/

section
variable {s t : State}

/-- A step writes `TC` at `I3_PROBE` alone (R25, R122). -/
theorem step_tc (h : step s = .next t) : t.tc = s.tc ∨ s.ph = .i3Probe := by
  obtain ⟨-, -, hu⟩ | ⟨hm, ha⟩ := step_cases h
  · exact hu.tc_eq.imp_right And.left
  · obtain ⟨_, _, _, _, _, _, rfl, -⟩ := agentStep_frame hm ha
    exact .inl rfl

/-- Under the invariant a determined `TC` is not written again: before the probe it is `Unknown` (R25). -/
theorem step_tc_of_determined (hs : s.Inv) (htc : s.tc ≠ .unknown) (h : step s = .next t) : t.tc = s.tc :=
  (step_tc h).resolve_right fun hp => htc (hs.unmeasured (by rw [hp]; rfl))

end

/-- Settles O50: in the run the invariant holds and `TC` keeps its value. -/
theorem timingClassIsImmutable : Obligations.TimingClassIsImmutable := by
  intro s t k hs htc hrun
  refine (runs_induction (P := fun u => u.Inv ∧ u.tc = s.tc) (fun u v ⟨hu, hutc⟩ h => ?_) ⟨hs, rfl⟩ hrun).2
  exact ⟨step_inv hu h, (step_tc_of_determined hu (hutc.symm ▸ htc) h).trans hutc⟩

/-! ## Sleeps -/

/-- The length of the sleep of the state's phase, where it sleeps (R42, R153, R164, R166, and log entry 25). -/
def State.sleepLength (s : State) : Option Nat :=
  match s.ph with
  | .i2Settle => some s.params.settleUs
  | .s4BreakHold | .xpBreakHold => if s.tc = .adequate then some s.params.breakHoldUs else none
  | .s6MabHold | .xpMabHold => if s.tc = .adequate then some s.params.mabHoldUs else none
  | _ => none

section
variable {s u : State} {d : Nat}

/-- The length of the sleep is a matter of the phase, `TC` and the parameters. -/
theorem State.sleepLength_congr (hph : u.ph = s.ph) (htc : u.tc = s.tc) (hparams : u.params = s.params) :
    u.sleepLength = s.sleepLength := by
  unfold State.sleepLength
  rw [hph, htc, hparams]

/-- A phase that sleeps is left when its sleep is over, and not before (R42). -/
theorem PhaseResult.sleep {now : Nat} (h : PhaseResult now s u) (hd : s.sleepLength = some d) :
    s.wakeTime now d ≤ u.now ∨ (u.ph = s.ph ∧ u.tc = s.tc ∧ u.params = s.params ∧ u.wake = some (s.wakeTime now d)) := by
  unfold State.sleepLength at hd
  cases h with
  | settled | breakHeld | mabHeld | finalBreakHeld | finalMabHeld => exact .inl (by simp_all)
  | settling | breakHolding | mabHolding | finalBreakHolding | finalMabHolding => exact .inr (by simp_all)
  | _ => simp_all

/-- From the state `s` with a sleep of `d` µs not begun, the run stands in its phase with the sleep ending `d` µs later at the earliest, or that
time is over. -/
def State.SleepsFrom (s u : State) (d : Nat) : Prop :=
  (u.ph = s.ph ∧ u.sleepLength = some d ∧ s.now ≤ u.now ∧ ∀ w, u.wake = some w → s.now + d ≤ w) ∨ s.now + d ≤ u.now

/-- Every step keeps a sleep from ending early, whichever agent makes it (R42). -/
theorem State.SleepsFrom.step {v : State} (hs : s.SleepsFrom u d) (h : step u = .next v) : s.SleepsFrom v d := by
  obtain ⟨-, -, hnow⟩ := step_params h
  obtain ⟨hph, hlength, hbegan, hwake⟩ | hover := hs
  · obtain ⟨-, -, hv⟩ | ⟨hm, ha⟩ := step_cases h
    · have hend : s.now + d ≤ u.wakeTime u.now d := by
        cases hw : u.wake with
        | none => simpa [State.wakeTime, hw] using hbegan
        | some w => simpa [State.wakeTime, hw] using hwake w hw
      obtain hover | ⟨hvph, htc, hparams, hvwake⟩ := hv.sleep (d := d) hlength
      · exact .inr (hend.trans hover)
      · refine .inl ⟨hvph.trans hph, (State.sleepLength_congr hvph htc hparams).trans hlength, hbegan.trans hnow, fun w hw => ?_⟩
        obtain rfl : u.wakeTime u.now d = w := Option.some.inj (hvwake.symm.trans hw)
        exact hend
    · obtain ⟨_, _, _, _, _, _, rfl, -⟩ := agentStep_frame hm ha
      exact .inl ⟨hph, hlength, hbegan.trans hnow, hwake⟩
  · exact .inr (hover.trans hnow)

/-- A run that has left the phase of a sleep not begun has taken the sleep's length. -/
theorem runs_sleep {k : Nat} (hwake : s.wake = none) (hd : s.sleepLength = some d) (hrun : runs k s = .next u) (hph : u.ph ≠ s.ph) :
    s.now + d ≤ u.now := by
  have hbegin : s.SleepsFrom s d := .inl ⟨rfl, hd, le_rfl, fun w hw => by rw [hwake] at hw; cases hw⟩
  have hsleeps := runs_induction (P := (s.SleepsFrom · d)) (fun _ _ hu h => hu.step h) hbegin hrun
  exact hsleeps.resolve_left fun h => hph h.1

end

/-- Settles O51: in the run the sleep goes on or its time is over. -/
theorem sleepNeverEndsEarly : Obligations.SleepNeverEndsEarly := by
  intro s t k _ hwake hrun hph
  refine ⟨fun hp => ?_, fun hp hc => ?_, fun hp hc => ?_, fun hp hc => ?_, fun hp hc => ?_⟩ <;>
    refine runs_sleep hwake ?_ hrun hph <;> unfold State.sleepLength <;> rw [hp]
  all_goals exact if_pos hc

/-! ## Cycles -/

section
variable {s u : State}

/-- `CYCLE_START` is written with the clock's time or not at all (R162). -/
theorem PhaseResult.cycleStart {now : Nat} (h : PhaseResult now s u) : u.cycleStart = s.cycleStart ∨ u.cycleStart = s.now := by
  cases h with
  | command c rest _ hp hq hc =>
    obtain ⟨-, -, -, -, -, hstart, -⟩ := hc.owned
    exact .inl hstart
  | stamp => exact .inr rfl
  | _ => exact .inl rfl

/-- A cycle keeps its `CYCLE_START`, and ends only once the target duration is over (R135, R168). -/
theorem PhaseResult.cycle {now : Nat} (h : PhaseResult now s u) (hs : s.ph.inCycle = true) :
    u.cycleStart = s.cycleStart ∧ (u.ph.inCycle = true ∨ s.targetMs * 1000 ≤ s.now - s.cycleStart) := by
  cases h with
  | paced _ _ hb => exact ⟨rfl, .inr hb⟩
  | breakOk | breakErr | breakHeld | breakNoHold | mabOk | mabErr | mabHeld | mabNoHold | writeOk | writeErr => exact ⟨rfl, .inl rfl⟩
  | breakHolding | mabHolding | yielding | pacing => exact ⟨rfl, .inl hs⟩
  | _ => simp_all [Phase.inCycle]

/-- From the state `s` inside a cycle: the run is still in that cycle, or the target duration is over and `CYCLE_START` still the same or
later by it. -/
def State.PacedFrom (s u : State) : Prop :=
  u.targetMs = s.targetMs ∧ s.cycleStart ≤ u.now ∧
    ((u.ph.inCycle = true ∧ u.cycleStart = s.cycleStart) ∨
      (s.cycleStart + s.targetMs * 1000 ≤ u.now ∧
        (u.cycleStart = s.cycleStart ∨ s.cycleStart + s.targetMs * 1000 ≤ u.cycleStart)))

/-- Every step keeps the pace, whichever agent makes it (R136). -/
theorem State.PacedFrom.step {v : State} (hs : s.PacedFrom u) (h : step u = .next v) : s.PacedFrom v := by
  obtain ⟨htarget, hstarted, hpace⟩ := hs
  obtain ⟨-, hvtarget, hnow⟩ := step_params h
  refine ⟨hvtarget.trans htarget, hstarted.trans hnow, ?_⟩
  obtain ⟨-, -, hv⟩ | ⟨hm, ha⟩ := step_cases h
  · obtain ⟨hcycle, hstart⟩ | ⟨hover, hstart⟩ := hpace
    · obtain ⟨hvstart, hvcycle | hreached⟩ := hv.cycle hcycle
      · exact .inl ⟨hvcycle, hvstart.trans hstart⟩
      · refine .inr ⟨?_, .inl (hvstart.trans hstart)⟩
        have hvnow := hv.now_eq
        simp only [State.begun_targetMs, State.begun_cycleStart, htarget, hstart] at hreached
        omega
    · refine .inr ⟨hover.trans hnow, ?_⟩
      obtain hvstart | hvstart := hv.cycleStart <;> rw [hvstart]
      · exact hstart
      · exact .inr (hover.trans (Nat.le_add_right _ _))
  · obtain ⟨_, _, _, _, _, _, rfl, hlater, -⟩ := agentStep_frame hm ha
    exact hpace.imp_right fun ⟨hover, hstart⟩ => ⟨hover.trans hlater, hstart⟩

end

/-- Settles O52: in the run the pace is kept, and inside the cycle `CYCLE_START` is the same. -/
theorem cyclesArePaced : Obligations.CyclesArePaced := by
  intro s t k hp hstart hrun
  have hbegin : s.PacedFrom s := ⟨rfl, hstart, .inl ⟨by rw [hp.2]; rfl, rfl⟩⟩
  obtain ⟨-, -, ⟨-, hsame⟩ | ⟨-, hlater⟩⟩ := runs_induction (P := s.PacedFrom) (fun _ _ hu h => hu.step h) hbegin hrun
  · exact .inl hsame
  · exact hlater

/-! ## The halted block -/

section
variable {s u : State}

/-- From the halted state `s`: the block is as it was but for what the other agents write and the records of the environment. -/
def State.HaltedFrom (s u : State) : Prop :=
  u = { s with
    cq := u.cq, rq := u.rq, cqTxOpen := u.cqTxOpen, rqRxOpen := u.rqRxOpen, now := u.now, devOpen := u.devOpen,
    sched := u.sched, moveCount := u.moveCount, draws := u.draws, drawCount := u.drawCount, cur := u.cur } ∧
  s.cq <+: u.cq ∧ u.rq <:+ s.rq

/-- What follows a state that follows `s` so, follows `s` so. -/
theorem State.HaltedFrom.trans {v : State} (hu : s.HaltedFrom u) (hv : u.HaltedFrom v) : s.HaltedFrom v := by
  obtain ⟨hu, hcq, hrq⟩ := hu
  obtain ⟨hv, hcq', hrq'⟩ := hv
  refine ⟨hv.trans ?_, hcq.trans hcq', hrq'.trans hrq⟩
  rw [hu]

/-- A halted block has no step but time passing (R176, log entry 6). -/
theorem PhaseResult.eq_of_halted {now : Nat} (h : PhaseResult now s u) (hp : s.ph = .x4Halt) : u = s := by
  cases h <;> simp_all

/-- Halting is kept by every step, whichever agent makes it (R176). -/
theorem State.HaltedFrom.of_step (hp : s.ph = .x4Halt) (h : step s = .next u) : s.HaltedFrom u := by
  obtain ⟨-, -, hu⟩ | ⟨hm, ha⟩ := step_cases h
  · obtain rfl := hu.eq_of_halted hp
    exact ⟨rfl, List.prefix_refl _, List.suffix_refl _⟩
  · obtain ⟨_, _, _, _, _, _, rfl, -, hcq, hrq, -⟩ := agentStep_frame hm ha
    refine ⟨rfl, ?_, ?_⟩
    · obtain rfl | ⟨_, i, -, -, -, rfl⟩ := hcq
      · exact List.prefix_refl _
      · exact List.prefix_append _ _
    · obtain rfl | ⟨x, -, -, hrq⟩ := hrq
      · exact List.suffix_refl _
      · exact ⟨[x], hrq.symm⟩

end

/-- Settles O57: in the run the block stays as it was when it halted. -/
theorem haltIsFinal : Obligations.HaltIsFinal := by
  intro s t k hs hrun
  have hbegin : s.HaltedFrom s := ⟨rfl, List.prefix_refl _, List.suffix_refl _⟩
  refine runs_induction (P := s.HaltedFrom) (fun u v hu h => hu.trans (.of_step ?_ h)) hbegin hrun
  exact (congrArg State.ph hu.1).trans hs.2

/-! ## After a `Stop` -/

section
variable {s u : State}

/-- How far a shutdown has come that has issued the break primitives `p` and then `l`, by its phase (R172 to R176, log entry 25). -/
def Phase.shutdownStage (ph : Phase) (p l : List TraceEntry) : Prop :=
  match ph with
  | .d1Flush | .x1Clear | .xpBreak => p = [] ∧ l = []
  | .xpBreakHold | .xpMab => p.length ≤ 1 ∧ l = []
  | .xpMabHold | .x2ZeroWrite => p.length ≤ 2 ∧ l = []
  | .x3Release => p.length ≤ 2 ∧ ∃ e, e.op = .tWrite zeroFrame ∧ l = [e]
  | .x4Halt => p.length ≤ 2 ∧ ∃ e f, e.op = .tWrite zeroFrame ∧ f.op = .tClose ∧ l = [e, f]
  | _ => False

/-- What a stage of the shutdown has issued (R178). -/
theorem Phase.issued_of_shutdownStage {ph : Phase} {p l : List TraceEntry} (h : ph.shutdownStage p l) :
    p.length ≤ 2 ∧
      (l = [] ∨ (∃ e, e.op = .tWrite zeroFrame ∧ l = [e]) ∨ ∃ e f, e.op = .tWrite zeroFrame ∧ f.op = .tClose ∧ l = [e, f]) := by
  unfold Phase.shutdownStage at h
  split at h
  case h_1 | h_2 | h_3 =>
    obtain ⟨rfl, rfl⟩ := h
    exact ⟨Nat.zero_le _, .inl rfl⟩
  case h_4 | h_5 =>
    obtain ⟨hp, rfl⟩ := h
    exact ⟨hp.trans (by decide), .inl rfl⟩
  case h_6 | h_7 => exact ⟨h.1, .inl h.2⟩
  case h_8 => exact ⟨h.1, .inr (.inl h.2)⟩
  case h_9 => exact ⟨h.1, .inr (.inr h.2)⟩
  case h_10 => exact h.elim

/-- After the trace `b` the shutdown at phase `ph` has issued at most a final preamble, in a build with one, and what that stage has come to. -/
def Shutdown (fp : Bool) (b : List TraceEntry) (ph : Phase) (trace : List TraceEntry) : Prop :=
  ∃ p l, trace = b ++ p ++ l ∧ (fp = false → p = []) ∧ (∀ e ∈ p, e.op = .tSetBreak ∨ e.op = .tClearBreak) ∧ ph.shutdownStage p l

section
variable {fp : Bool} {b trace : List TraceEntry} {ph ph' : Phase} {e : TraceEntry}

/-- A stage goes on without an event. -/
theorem Shutdown.quiet (h : Shutdown fp b ph trace) (hstage : ∀ p l, ph.shutdownStage p l → ph'.shutdownStage p l) :
    Shutdown fp b ph' trace := by
  obtain ⟨p, l, htrace, hfp, hops, hs⟩ := h
  exact ⟨p, l, htrace, hfp, hops, hstage p l hs⟩

/-- A stage of a final preamble issues one break primitive more. -/
theorem Shutdown.issueBreak (h : Shutdown fp b ph trace) (hfp : fp = true) (hop : e.op = .tSetBreak ∨ e.op = .tClearBreak)
    (hstage : ∀ p l, ph.shutdownStage p l → l = [] ∧ ph'.shutdownStage (p ++ [e]) []) : Shutdown fp b ph' (trace ++ [e]) := by
  obtain ⟨p, l, rfl, -, hops, hs⟩ := h
  obtain ⟨rfl, hs'⟩ := hstage p l hs
  refine ⟨p ++ [e], [], by simp, fun hf => absurd (hfp.symm.trans hf) (by decide), fun f hf => ?_, hs'⟩
  obtain hf | hf := List.mem_append.1 hf
  · exact hops f hf
  · exact List.mem_singleton.1 hf ▸ hop

/-- A stage issues the final frame or the release. -/
theorem Shutdown.issue (h : Shutdown fp b ph trace) (hstage : ∀ p l, ph.shutdownStage p l → ph'.shutdownStage p (l ++ [e])) :
    Shutdown fp b ph' (trace ++ [e]) := by
  obtain ⟨p, l, rfl, hfp, hops, hs⟩ := h
  exact ⟨p, l ++ [e], by rw [List.append_assoc _ l], hfp, hops, hstage p l hs⟩

/-- Outside the phases of the shutdown there is no stage of it. -/
theorem Shutdown.elim {P : Prop} (h : Shutdown fp b ph trace) (hstage : ∀ p l, ¬ph.shutdownStage p l) : P := by
  obtain ⟨p, l, -, -, -, hs⟩ := h
  exact absurd hs (hstage p l)

end

/-- `SEQ` takes the shutdown from stage to stage (R172 to R176, log entry 25). -/
theorem PhaseResult.shutdown {now : Nat} {b : List TraceEntry} (h : PhaseResult now s u) (hplaced : s.placed)
    (hblank : s.ph.blankBuffer = true → s.fb = []) (hs : Shutdown s.params.finalPreamble b s.ph s.trace) :
    Shutdown s.params.finalPreamble b u.ph u.trace := by
  have hfinal {p : Phase} (hp : s.ph = p) (hf : p.ofFinalPreamble = true) : s.params.finalPreamble = true := hplaced.2 (hp ▸ hf)
  have hzero (hp : s.ph = .x2ZeroWrite) : s.fb.frame = zeroFrame := by
    rw [hblank (by rw [hp]; rfl), Memory.frame_nil]
  cases h with
  | flush hp | finalBreakHeld hp | finalBreakNoHold hp | finalMabHeld hp | finalMabNoHold hp | clearFinal hp =>
    rw [hp] at hs
    exact hs.quiet fun _ _ => id
  | clear hp =>
    rw [hp] at hs
    exact hs.quiet fun _ _ ⟨hp, hl⟩ => ⟨by simp [hp], hl⟩
  | finalBreakHolding | finalMabHolding | halt => exact hs
  | finalBreakOk hp | finalBreakErr hp =>
    have hf := hfinal hp rfl
    rw [hp] at hs
    exact hs.issueBreak hf (.inl rfl) fun _ _ ⟨hp, hl⟩ => ⟨hl, by simp [hp], rfl⟩
  | finalMabOk hp | finalMabErr hp =>
    have hf := hfinal hp rfl
    rw [hp] at hs
    exact hs.issueBreak hf (.inr rfl) fun _ _ ⟨hp, hl⟩ => ⟨hl, by simpa using hp, rfl⟩
  | zeroOk hp | zeroErr hp =>
    have hframe := hzero hp
    rw [hp] at hs
    refine hs.issue ?_
    rintro p _ ⟨hp, rfl⟩
    exact ⟨hp, ⟨_, _, _⟩, congrArg Prim.tWrite hframe, rfl⟩
  | closeOk hp | closeErr hp =>
    rw [hp] at hs
    refine hs.issue ?_
    rintro p _ ⟨hp, e, he, rfl⟩
    exact ⟨hp, e, ⟨_, _, _⟩, he, rfl, rfl⟩
  | openOk hp | openExcl hp | openErr hp | settled hp | settling hp | probe hp | configOk hp | configErr hp | drained hp | command _ _ _ hp
  | stamp hp | breakOk hp | breakErr hp | breakHeld hp | breakHolding hp | breakNoHold hp | mabOk hp | mabErr hp | mabHeld hp
  | mabHolding hp | mabNoHold hp | writeOk hp | writeErr hp | yielding hp | paced hp | pacing hp =>
    exact hs.elim (by rw [hp]; exact fun _ _ => id)

/-- From the state `s` at `D1_FLUSH`: the block is shutting down, its buffer blank from `X1_CLEAR` on. -/
def State.ShutFrom (s u : State) : Prop :=
  u.placed ∧ (u.ph.blankBuffer = true → u.fb = []) ∧ u.params = s.params ∧ Shutdown s.params.finalPreamble s.trace u.ph u.trace

/-- Every step keeps the shutdown going, whichever agent makes it (R178). -/
theorem State.ShutFrom.step {v : State} (hu : s.ShutFrom u) (h : step u = .next v) : s.ShutFrom v := by
  obtain ⟨hplaced, hblank, hparams, hshut⟩ := hu
  obtain ⟨hvparams, -, -⟩ := step_params h
  obtain ⟨-, -, hv⟩ | ⟨hm, ha⟩ := step_cases h
  · rw [← hparams] at hshut
    refine ⟨hv.placed hplaced, hv.blank hblank, hvparams.trans hparams, ?_⟩
    rw [← hparams]
    exact hv.shutdown hplaced hblank hshut
  · obtain ⟨_, _, _, _, _, _, rfl, -⟩ := agentStep_frame hm ha
    exact ⟨hplaced, hblank, hparams, hshut⟩

end

/-- Settles O56: in the run the block is shutting down, and each stage has issued no more. -/
theorem nothingButZeroFrameAfterStop : Obligations.NothingButZeroFrameAfterStop := by
  intro s t k hp hrun
  have hbegin : s.ShutFrom s := by
    refine ⟨State.placed_of_atPhase hp rfl, by rw [hp.2]; exact nofun, rfl, [], [], by simp, fun _ => rfl, nofun, ?_⟩
    rw [hp.2]
    exact ⟨rfl, rfl⟩
  obtain ⟨-, -, -, p, l, htrace, hfp, hops, hstage⟩ := runs_induction (P := s.ShutFrom) (fun _ _ hu h => hu.step h) hbegin hrun
  obtain ⟨hlength, hl⟩ := Phase.issued_of_shutdownStage hstage
  exact ⟨p, l, htrace, hfp, hlength, hops, hl⟩

end Sys2Proof.Machine
end

section
/-! PROOFS. Family other, bounded progress: the drain of a list of commands and the flood that never ends it (R59, R160, U24), one whole cycle (R169),
and the shutdown (R177), each as a run of steps of known outcome. -/

namespace Sys2Proof.Machine

/-- A run followed by a run. -/
theorem runs_append {a b : Nat} {s t u : State} (h : runs a s = .next t) (h' : runs b t = .next u) : runs (a + b) s = .next u := by
  induction a generalizing s with
  | zero => rwa [Nat.zero_add, ← runs_zero h]
  | succ a ih =>
    obtain ⟨v, hstep, hrun⟩ := runs_succ h
    rw [Nat.succ_add]
    exact runs_cons hstep (ih hrun)

/-! ## The drain -/

/-- What one command leaves in a channel (R200, R203). -/
def channelAfter (k : Nat) (b : Byte) (c : Instr) : Byte :=
  match c with
  | .setChannel j v => if j = k then v else b
  | .clearFrame => 0#8
  | _ => b

section
variable {s t : State} {i : Instr}

/-- A command leaves in each channel what `channelAfter` gives (R200, R203). -/
theorem ExecResult.read_channel (h : ExecResult s i t) (hwf : s.fb.wf = true) {k : Nat} (hk : 1 ≤ k ∧ k ≤ 512) :
    t.fb.read k = channelAfter k (s.fb.read k) i := by
  cases h with
  | set c v =>
    by_cases hck : c = k
    · subst hck
      exact (Memory.read_write_same c v hwf).trans (if_pos rfl).symm
    · exact (Memory.read_write_other s.fb v (Ne.symm hck)).trans (if_neg hck).symm
  | bounds c v hc =>
    have hck : c ≠ k := fun hck => hc (hck ▸ hk)
    exact (if_neg hck).symm
  | _ => rfl

/-- The primitives a command may issue: `T_CONFIGURE` with the latches, and `T_ENUMERATE` (R105). -/
theorem ExecResult.trace_append (h : ExecResult s i t) :
    ∃ l, t.trace = s.trace ++ l ∧ ∀ e ∈ l, e.op = .tEnumerate ∨ e.op = s.configureArgs := by
  cases h with
  | set | bounds | stop | clear => exact ⟨[], by simp, nofun⟩
  | resetOk | resetErr => exact ⟨_, rfl, fun e he => .inr (List.mem_singleton.1 he ▸ rfl)⟩
  | listSent | listDropped | emptySent | emptyDropped => exact ⟨_, rfl, fun e he => .inl (List.mem_singleton.1 he ▸ rfl)⟩

/-- One step of a drain executes the head of the queue, and unless that is `Stop` the drain goes on with the rest (R160). -/
theorem step_drain_result {rest : List Instr} (ht : s.seqTurn) (hp : s.atPhase .s1Drain) (hq : s.cq = i :: rest) (hi : i ≠ .stop) :
    ∃ t, step s = .next t ∧ ExecResult { s.begun with cq := rest } i t ∧ t.atPhase .s1Drain ∧ t.cq = rest ∧ t.sched = s.sched.tail := by
  obtain ⟨t, hexec, hres⟩ := exec_cases i { s.begun with cq := rest }
  obtain ⟨hcq, -, -, -, -, -, hsched, -, -, -, hpos⟩ := hres.keeps
  obtain ⟨hls, hph⟩ := hpos hi
  exact ⟨t, (step_drain ht hp hq).trans hexec, hres, ⟨hls.trans hp.1, hph.trans hp.2⟩, hcq, hsched⟩

end

/-- A drain of commands without `Stop` takes one step for each, and folds them over each channel in order (R59, R160). -/
theorem runs_drain {s : State} {cmds rest : List Instr} (hp : s.atPhase .s1Drain) (ht : s.seqTurns cmds.length) (hwf : s.fb.wf = true)
    (hq : s.cq = cmds ++ rest) (hstop : .stop ∉ cmds) :
    ∃ t, runs cmds.length s = .next t ∧ t.atPhase .s1Drain ∧ t.cq = rest ∧
      ∀ k, 1 ≤ k → k ≤ 512 → t.fb.read k = cmds.foldl (channelAfter k) (s.fb.read k) := by
  induction cmds generalizing s with
  | nil => exact ⟨s, rfl, hp, hq, fun _ _ _ => rfl⟩
  | cons c cmds ih =>
    obtain ⟨hc, hcmds⟩ := not_or.1 (List.mem_cons.not.1 hstop)
    obtain ⟨hturn, hturns⟩ := State.seqTurns_succ ht
    obtain ⟨u, hstep, hres, hup, huq, hsched⟩ := step_drain_result hturn hp hq (Ne.symm hc)
    obtain ⟨t, hrun, htp, htq, hread⟩ := ih hup (hturns u hsched) (hres.bufferWf hwf) huq hcmds
    refine ⟨t, runs_cons hstep hrun, htp, htq, fun k h1 h512 => ?_⟩
    rw [hread k h1 h512, hres.read_channel hwf ⟨h1, h512⟩]
    rfl

section
variable {s : State} {w : Nat} {i : Instr}

/-- The state after the host has sent a valid word, by what a drain needs of it (R191). -/
theorem step_send (hw : s.nextMove = .send w) (ho : s.cqTxOpen = true) (hi : s.params.format.decode w = .ok i) :
    ∃ u, step s = .next u ∧ u.cq = s.cq ++ [i] ∧ u.ls = s.ls ∧ u.ph = s.ph ∧ u.cqTxOpen = true ∧ u.params = s.params ∧
      u.latches = s.latches ∧ u.trace = s.trace ∧ u.sched = s.sched.tail :=
  ⟨_, (step_of_nextMove hw).trans (congrArg Host.Outcome.next (State.hostSend_of_ok (s := s.advanced) hi ho)),
    rfl, rfl, rfl, ho, rfl, rfl, rfl, rfl⟩

/-- `T_CONFIGURE` takes its arguments from the latches (R95). -/
theorem State.configureArgs_congr {u : State} (h : u.latches = s.latches) : u.configureArgs = s.configureArgs := by
  obtain ⟨-, -, hrd, hwr, hline⟩ := Latches.mk.inj h
  rw [State.configureArgs, State.configureArgs, hrd, hwr, hline]

/-- A flood with the word `w` from `S1_DRAIN`: commands wait, none of them `Stop`, and the host may send more. -/
def State.Flooded (s : State) (w : Nat) (i : Instr) : Prop :=
  s.atPhase .s1Drain ∧ s.cqTxOpen = true ∧ s.params.format.decode w = .ok i ∧ s.cq ≠ [] ∧ .stop ∉ s.cq

/-- One command sent and one executed: the flood goes on, and as many commands wait as before (U24). -/
theorem runs_flood_once {l : List Move} (hs : s.Flooded w i) (hi : i ≠ .stop) (hsched : s.sched = .send w :: .seq :: l) :
    ∃ t, runs 2 s = .next t ∧ t.Flooded w i ∧ t.cq.length = s.cq.length ∧ t.sched = l ∧ t.latches = s.latches ∧
      ∃ l', t.trace = s.trace ++ l' ∧ ∀ e ∈ l', e.op = .tEnumerate ∨ e.op = s.configureArgs := by
  obtain ⟨⟨hls, hph⟩, hopen, hdecode, hq, hstop⟩ := hs
  obtain ⟨c, rest, hcq⟩ := List.exists_cons_of_ne_nil hq
  rw [hcq] at hstop
  obtain ⟨hc, hrest⟩ := not_or.1 (List.mem_cons.not.1 hstop)
  obtain ⟨u, hsent, hucq, huls, huph, huopen, huparams, hulatches, hutrace, husched⟩ :=
    step_send (by rw [State.nextMove, hsched]; rfl) hopen hdecode
  rw [hsched] at husched
  rw [hcq] at hucq
  obtain ⟨t, hstep, hres, htp, htq, htsched⟩ :=
    step_drain_result (by rw [State.seqTurn, State.nextMove, husched]; rfl) ⟨huls.trans hls, huph.trans hph⟩ hucq (Ne.symm hc)
  obtain ⟨-, htopen, -, -, -, htparams, -⟩ := hres.keeps
  have hparams : t.params = s.params := htparams.trans huparams
  have hqueue : t.cq = rest ++ [i] := htq
  refine ⟨t, runs_cons hsent (runs_cons hstep rfl), ⟨htp, htopen.trans huopen, hparams ▸ hdecode, ?_, ?_⟩, ?_, ?_,
    hres.latches_eq.trans hulatches, ?_⟩
  · simp [hqueue]
  · simp [hqueue, hrest, Ne.symm hi]
  · simp [hqueue, hcq]
  · rw [htsched, husched]; rfl
  · obtain ⟨l', htrace, hops⟩ := hres.trace_append
    refine ⟨l', htrace.trans (congrArg (· ++ l') hutrace), fun e he => ?_⟩
    rw [← State.configureArgs_congr hulatches]
    exact hops e he

/-- However long the flood, the drain does not end, and it issues no break and no frame (R271, U24). -/
theorem runs_flood {n : Nat} (hs : s.Flooded w i) (hi : i ≠ .stop)
    (hsched : s.sched.take (2 * n) = (List.replicate n [.send w, .seq]).flatten) :
    ∃ t l, runs (2 * n) s = .next t ∧ t.Flooded w i ∧ t.cq.length = s.cq.length ∧ t.trace = s.trace ++ l ∧
      ∀ e ∈ l, e.op = .tEnumerate ∨ e.op = s.configureArgs := by
  induction n generalizing s with
  | zero => exact ⟨s, [], rfl, hs, rfl, (List.append_nil _).symm, nofun⟩
  | succ n ih =>
    obtain ⟨l, hl, htail⟩ : ∃ l, s.sched = .send w :: .seq :: l ∧ l.take (2 * n) = (List.replicate n [.send w, .seq]).flatten := by
      rw [Nat.mul_succ, List.replicate_succ, List.flatten_cons] at hsched
      match hl : s.sched with
      | [] | [_] => simp [hl] at hsched
      | a :: b :: l =>
        rw [hl] at hsched
        obtain ⟨rfl, rfl, htail⟩ : a = .send w ∧ b = .seq ∧ l.take (2 * n) = (List.replicate n [.send w, .seq]).flatten := by
          simpa using hsched
        exact ⟨l, rfl, htail⟩
    obtain ⟨u, hrun, hu, hlength, husched, hulatches, l₁, hl₁, hops₁⟩ := runs_flood_once hs hi hl
    obtain ⟨t, l₂, hrun', ht, hlength', hl₂, hops₂⟩ := ih hu (husched ▸ htail)
    refine ⟨t, l₁ ++ l₂, ?_, ht, hlength'.trans hlength, by rw [hl₂, hl₁, List.append_assoc], fun e he => ?_⟩
    · rw [Nat.mul_succ, Nat.add_comm]
      exact runs_append hrun hrun'
    · obtain he | he := List.mem_append.1 he
      · exact hops₁ e he
      · rw [← State.configureArgs_congr hulatches]
        exact hops₂ e he

end

/-- Settles O53: the drain by induction on the commands, the flood by induction on its length. -/
theorem drainExecutesInOrder : Obligations.DrainExecutesInOrder := by
  refine ⟨fun s cmds rest hp ht hwf hq hstop => runs_drain hp ht hwf hq hstop, fun s w n i hp ho hdecode hi hq hstop hsched => ?_⟩
  obtain ⟨t, l, hrun, ht, hlength, htrace, hops⟩ := runs_flood ⟨hp, ho, hdecode, hq, hstop⟩ hi hsched
  exact ⟨t, l, hrun, ht.1, hlength, htrace, hops⟩

/-! ## Steps of `SEQ` alone -/

/-- What a step outside the drain leaves as it was (R33, R35). -/
theorem PhaseResult.carries {now : Nat} {s u : State} (h : PhaseResult now s u) (hp : s.ph ≠ .s1Drain) :
    u.sched = s.sched ∧ u.draws = s.draws ∧ u.cq = s.cq ∧ u.rq = s.rq := by
  cases h with
  | command c rest _ hp' => exact absurd hp' hp
  | _ => exact ⟨rfl, rfl, rfl, rfl⟩

/-- `SEQ` alone takes `s` in `k` steps to `t`, at phase `p` and with the buffer `m`: `TRACE` gains the events `es`, and `SEQ` has the next `n`
turns, too. -/
structure Progress (k n : Nat) (s t : State) (p : Phase) (m : Memory) (es : List TraceEntry) : Prop where
  run      : runs k s = .next t
  placed   : t.placed
  phase    : t.ph = p
  buffer   : t.fb = m
  trace    : t.trace = s.trace ++ es
  turns    : t.seqTurns n
  draws    : t.draws = s.draws.drop k
  asleep   : s.wake = none → t.wake = none
  later    : s.now ≤ t.now
  params   : t.params = s.params
  devIndex : t.devIndex = s.devIndex
  cq       : t.cq = s.cq
  rq       : t.rq = s.rq

section
variable {k j n i : Nat} {s t u : State} {p q : Phase} {m m' : Memory} {es es' : List TraceEntry}

/-- The state reached is at its phase, in the loop state R24 gives it. -/
theorem Progress.atPhase (h : Progress k n s t p m es) : t.atPhase p := h.placed.atPhase h.phase

/-- Progress after progress. -/
theorem Progress.trans (h : Progress k n s t p m es) (h' : Progress j i t u q m' es') : Progress (k + j) i s u q m' (es ++ es') where
  run := runs_append h.run h'.run
  placed := h'.placed
  phase := h'.phase
  buffer := h'.buffer
  trace := by rw [h'.trace, h.trace, List.append_assoc]
  turns := h'.turns
  draws := by rw [h'.draws, h.draws, List.drop_drop]
  asleep hs := h'.asleep (h.asleep hs)
  later := h.later.trans h'.later
  params := h'.params.trans h.params
  devIndex := h'.devIndex.trans h.devIndex
  cq := h'.cq.trans h.cq
  rq := h'.rq.trans h.rq

/-- One step of known outcome, outside the drain. -/
theorem Progress.of_result (h : PhaseResult s.now s.begun t) (hs : s.placed) (ht : s.seqTurns (n + 1)) (hp : s.ph ≠ .s1Drain)
    (hwake : s.wake = none → t.wake = none) (htrace : t.trace = s.trace ++ es) : Progress 1 n s t t.ph t.fb es := by
  obtain ⟨hturn, hturns⟩ := State.seqTurns_succ ht
  obtain ⟨hsched, hdraws, hcq, hrq⟩ := h.carries hp
  obtain ⟨hdev, -⟩ := Latches.mk.inj h.latches_eq
  exact
    { run := runs_cons (step_of_result hturn hs h) rfl
      placed := h.placed hs
      phase := rfl
      buffer := rfl
      trace := htrace
      turns := hturns t hsched
      draws := hdraws.trans List.drop_one.symm
      asleep := hwake
      later := (Nat.le_add_right _ _).trans_eq h.now_eq.symm
      params := h.params_eq.1
      devIndex := hdev
      cq := hcq
      rq := hrq }

end

/-! ## A preamble -/

/-- The next `n` draws answer `Ok` and last as long as the holds (R91, R164, R166). -/
def GoodDraws (p : Params) (n : Nat) (l : List Draw) : Prop :=
  n ≤ l.length ∧ ∀ d ∈ l.take n, d.answersOk = true ∧ p.breakHoldUs ≤ d.elapsed ∧ p.mabHoldUs ≤ d.elapsed

/-- The next of them is the draw of the next step. -/
theorem GoodDraws.nextDraw {p : Params} {n : Nat} {s : State} (h : GoodDraws p (n + 1) s.draws) :
    s.nextDraw.answersOk = true ∧ p.breakHoldUs ≤ s.nextDraw.elapsed ∧ p.mabHoldUs ≤ s.nextDraw.elapsed := by
  obtain ⟨hlength, hgood⟩ := h
  rw [State.nextDraw]
  cases hd : s.draws with
  | nil => simp [hd] at hlength
  | cons d l => exact hgood d (by simp [hd])

/-- After some of them the others are left. -/
theorem GoodDraws.drop {p : Params} {k n : Nat} {l : List Draw} (h : GoodDraws p (k + n) l) : GoodDraws p n (l.drop k) := by
  obtain ⟨hlength, hgood⟩ := h
  refine ⟨by rw [List.length_drop]; omega, fun d hd => hgood d ?_⟩
  rw [List.take_drop] at hd
  exact List.mem_of_mem_drop hd

/-- The five phases of a preamble: the assert, its hold, the deassert, its hold, and the write that follows (R163 to R166, log entry 25). -/
structure PreamblePhases (p₁ p₂ p₃ p₄ p₅ : Phase) : Prop where
  breakOk (t : Nat) (s : State) : s.ph = p₁ → s.cur.answersOk = true →
    PhaseResult t s { s.record .tSetBreak .ok with line := .breakLow, brk := true, ph := p₂ }
  breakHeld (t : Nat) (s : State) : s.ph = p₂ → s.tc = .adequate → s.wakeTime t s.params.breakHoldUs ≤ s.now →
    PhaseResult t s { s with wake := none, ph := p₃ }
  breakNoHold (t : Nat) (s : State) : s.ph = p₂ → s.tc ≠ .adequate → PhaseResult t s { s with ph := p₃ }
  mabOk (t : Nat) (s : State) : s.ph = p₃ → s.cur.answersOk = true →
    PhaseResult t s { s.record .tClearBreak .ok with line := .mark, brk := false, ph := p₄ }
  mabHeld (t : Nat) (s : State) : s.ph = p₄ → s.tc = .adequate → s.wakeTime t s.params.mabHoldUs ≤ s.now →
    PhaseResult t s { s with wake := none, ph := p₅ }
  mabNoHold (t : Nat) (s : State) : s.ph = p₄ → s.tc ≠ .adequate → PhaseResult t s { s with ph := p₅ }
  notDrain : p₁ ≠ .s1Drain ∧ p₂ ≠ .s1Drain ∧ p₃ ≠ .s1Drain ∧ p₄ ≠ .s1Drain

/-- Steps 3 to 7 of a cycle. -/
theorem preamblePhases_cycle : PreamblePhases .s3Break .s4BreakHold .s5Mab .s6MabHold .s7Write :=
  ⟨fun _ _ => .breakOk, fun _ _ => .breakHeld, fun _ _ => .breakNoHold, fun _ _ => .mabOk, fun _ _ => .mabHeld,
    fun _ _ => .mabNoHold, by decide⟩

/-- The final preamble and the final frame. -/
theorem preamblePhases_final : PreamblePhases .xpBreak .xpBreakHold .xpMab .xpMabHold .x2ZeroWrite :=
  ⟨fun _ _ => .finalBreakOk, fun _ _ => .finalBreakHeld, fun _ _ => .finalBreakNoHold, fun _ _ => .finalMabOk,
    fun _ _ => .finalMabHeld, fun _ _ => .finalMabNoHold, by decide⟩

section
variable {n : Nat} {s : State} {p q : Phase} {d : Nat}

/-- A hold whose sleep is not begun, in a step that lasts as long, is left in that step, under every classification (R164, R166). -/
theorem progress_hold (hs : s.placed) (ht : s.seqTurns (n + 1)) (hp : s.ph ≠ .s1Drain) (hwake : s.wake = none)
    (hd : d ≤ s.nextDraw.elapsed)
    (hheld : s.tc = .adequate → s.wakeTime s.now d ≤ s.begun.now → PhaseResult s.now s.begun { s.begun with wake := none, ph := q })
    (hno : s.tc ≠ .adequate → PhaseResult s.now s.begun { s.begun with ph := q }) : ∃ t, Progress 1 n s t q s.fb [] := by
  have hover : s.wakeTime s.now d ≤ s.begun.now := by
    rw [State.wakeTime, hwake]
    exact Nat.add_le_add_left hd s.now
  by_cases hc : s.tc = .adequate
  · exact ⟨_, .of_result (hheld hc hover) hs ht hp (fun _ => rfl) (List.append_nil _).symm⟩
  · exact ⟨_, .of_result (hno hc) hs ht hp id (List.append_nil _).symm⟩

variable {p₁ p₂ p₃ p₄ p₅ : Phase} (h : PreamblePhases p₁ p₂ p₃ p₄ p₅)
include h

/-- The assert and its hold, two steps (R163, R164). -/
theorem progress_break {m : Nat} (hs : s.placed) (hp : s.ph = p₁) (ht : s.seqTurns (n + 2)) (hwake : s.wake = none)
    (hd : GoodDraws s.params (2 + m) s.draws) :
    ∃ (t : State) (t₃ : Nat), Progress 2 n s t p₃ s.fb [⟨t₃, .tSetBreak, .ok⟩] ∧ t₃ ≤ t.now := by
  obtain ⟨h₁, h₂, -, -⟩ := h.notDrain
  obtain ⟨a, ha⟩ : ∃ a, Progress 1 (n + 1) s a p₂ s.fb [⟨a.now, .tSetBreak, .ok⟩] :=
    ⟨_, .of_result (h.breakOk s.now s.begun hp (GoodDraws.nextDraw (n := 1 + m) (by rwa [Nat.add_right_comm])).1) hs ht (hp ▸ h₁) id rfl⟩
  have hda : GoodDraws a.params (m + 1) a.draws := by
    rw [ha.params, ha.draws, Nat.add_comm]
    exact GoodDraws.drop (by rwa [← Nat.add_assoc])
  obtain ⟨b, hb⟩ := progress_hold ha.placed ha.turns (ha.phase ▸ h₂) (ha.asleep hwake) hda.nextDraw.2.1
    (h.breakHeld a.now a.begun ha.phase) (h.breakNoHold a.now a.begun ha.phase)
  exact ⟨b, a.now, ha.buffer ▸ ha.trans hb, hb.later⟩

/-- The deassert and its hold, two steps (R165, R166). -/
theorem progress_mab {m : Nat} (hs : s.placed) (hp : s.ph = p₃) (ht : s.seqTurns (n + 2)) (hwake : s.wake = none)
    (hd : GoodDraws s.params (2 + m) s.draws) :
    ∃ (t : State) (t₅ : Nat), Progress 2 n s t p₅ s.fb [⟨t₅, .tClearBreak, .ok⟩] ∧ s.now ≤ t₅ ∧ t₅ ≤ t.now := by
  obtain ⟨-, -, h₃, h₄⟩ := h.notDrain
  obtain ⟨a, ha⟩ : ∃ a, Progress 1 (n + 1) s a p₄ s.fb [⟨a.now, .tClearBreak, .ok⟩] :=
    ⟨_, .of_result (h.mabOk s.now s.begun hp (GoodDraws.nextDraw (n := 1 + m) (by rwa [Nat.add_right_comm])).1) hs ht (hp ▸ h₃) id rfl⟩
  have hda : GoodDraws a.params (m + 1) a.draws := by
    rw [ha.params, ha.draws, Nat.add_comm]
    exact GoodDraws.drop (by rwa [← Nat.add_assoc])
  obtain ⟨b, hb⟩ := progress_hold ha.placed ha.turns (ha.phase ▸ h₄) (ha.asleep hwake) hda.nextDraw.2.2
    (h.mabHeld a.now a.begun ha.phase) (h.mabNoHold a.now a.begun ha.phase)
  exact ⟨b, a.now, ha.buffer ▸ ha.trans hb, ha.later, hb.later⟩

/-- A preamble whose primitives succeed, in steps that last as long as its holds, takes four steps and emits the assert and the deassert (R169). -/
theorem progress_preamble {m : Nat} (hs : s.placed) (hp : s.ph = p₁) (ht : s.seqTurns (n + 4)) (hwake : s.wake = none)
    (hd : GoodDraws s.params (4 + m) s.draws) :
    ∃ (t : State) (t₃ t₅ : Nat), Progress 4 n s t p₅ s.fb [⟨t₃, .tSetBreak, .ok⟩, ⟨t₅, .tClearBreak, .ok⟩] ∧ t₃ ≤ t₅ ∧ t₅ ≤ t.now := by
  obtain ⟨b, t₃, hb, hb₃⟩ := progress_break (n := n + 2) (m := 2 + m) h hs hp ht hwake (by rwa [← Nat.add_assoc])
  have hdb : GoodDraws b.params (2 + m) b.draws := by
    rw [hb.params, hb.draws]
    exact GoodDraws.drop (by rwa [← Nat.add_assoc])
  obtain ⟨t, t₅, ht, hb₅, ht₅⟩ := progress_mab (n := n) h hb.placed hb.phase hb.turns (hb.asleep hwake) hdb
  exact ⟨t, t₃, t₅, hb.buffer ▸ hb.trans ht, hb₃.trans hb₅, ht₅⟩

end

/-! ## One cycle -/

/-- Settles O54: the stamp, the preamble, and the write of the buffer, which none of these steps touches. -/
theorem cycleEmitsPreambleThenFrame : Obligations.CycleEmitsPreambleThenFrame := by
  intro s hp ht hwake hdraws hlength
  have hd : GoodDraws s.params 6 s.draws := ⟨hlength, hdraws⟩
  obtain ⟨a, ha⟩ : ∃ a, Progress 1 5 s a .s3Break s.fb [] :=
    ⟨_, .of_result (.stamp hp.2) (State.placed_of_atPhase hp rfl) ht (by rw [hp.2]; decide) id (List.append_nil _).symm⟩
  have hda : GoodDraws a.params 5 a.draws := by
    rw [ha.params, ha.draws]
    exact GoodDraws.drop hd
  obtain ⟨b, t₃, t₅, hb, h₃₅, h₅⟩ :=
    progress_preamble (n := 1) (m := 1) preamblePhases_cycle ha.placed ha.phase ha.turns (ha.asleep hwake) hda
  have hdb : GoodDraws b.params 1 b.draws := by
    rw [hb.params, hb.draws]
    exact GoodDraws.drop hda
  obtain ⟨t, hw⟩ : ∃ t, Progress 1 0 b t .s8Pace b.fb [⟨t.now, .tWrite b.fb.frame, .ok⟩] :=
    ⟨_, .of_result (.writeOk hb.phase hdb.nextDraw.1) hb.placed hb.turns (by rw [hb.phase]; decide) id rfl⟩
  have hall := (ha.trans hb).trans hw
  have hbuffer : b.fb = s.fb := hb.buffer.trans ha.buffer
  rw [hbuffer] at hall
  exact ⟨t, t₃, t₅, t.now, hall.run, hall.atPhase, hall.buffer, h₃₅, h₅.trans hw.later, hall.trace⟩

/-! ## The shutdown -/

section
variable {s : State}

/-- The final write, whatever it answers (R174). -/
theorem PhaseResult.of_zeroWrite {now : Nat} {u : State} (h : PhaseResult now s u) (hp : s.ph = .x2ZeroWrite) :
    u.ph = .x3Release ∧ u.fb = s.fb ∧ u.wake = s.wake ∧ ∃ e : TraceEntry, u.trace = s.trace ++ [e] ∧ e.op = .tWrite s.fb.frame := by
  cases h with
  | zeroOk | zeroErr => exact ⟨rfl, rfl, rfl, _, rfl, rfl⟩
  | _ => simp_all

/-- The release, whatever it answers (R102, R175). -/
theorem PhaseResult.of_release {now : Nat} {u : State} (h : PhaseResult now s u) (hp : s.ph = .x3Release) :
    u.ph = .x4Halt ∧ u.fb = s.fb ∧ u.wake = s.wake ∧ u.handle = .none ∧ s.devIndex ∉ u.devOpen ∧
      ∃ e : TraceEntry, u.trace = s.trace ++ [e] ∧ e.op = .tClose := by
  have hout : s.devIndex ∉ removeIndex s.devIndex s.devOpen := fun h => (mem_removeIndex.1 h).2 rfl
  cases h with
  | closeOk | closeErr => exact ⟨rfl, rfl, rfl, rfl, hout, _, rfl, rfl⟩
  | _ => simp_all

/-- The final frame and the release, two steps whatever the transport answers (R174, R175, R177). -/
theorem progress_release (hs : s.placed) (hp : s.ph = .x2ZeroWrite) (ht : s.seqTurns 2) (hfb : s.fb = []) :
    ∃ (t : State) (e f : TraceEntry), Progress 2 0 s t .x4Halt [] [e, f] ∧ e.op = .tWrite zeroFrame ∧ f.op = .tClose ∧ t.handle = .none ∧
      s.devIndex ∉ t.devOpen := by
  obtain ⟨a, -, ha⟩ := phaseStep_cases s.now s.begun
  obtain ⟨haph, hafb, hawake, e, hatrace, he⟩ := ha.of_zeroWrite hp
  have hwrite := Progress.of_result ha hs ht (by rw [hp]; decide) hawake.trans hatrace
  obtain ⟨t, -, ht⟩ := phaseStep_cases a.now a.begun
  obtain ⟨htph, htfb, htwake, hhandle, hdev, f, httrace, hf⟩ := ht.of_release haph
  have hclose := Progress.of_result ht hwrite.placed hwrite.turns (by rw [haph]; decide) htwake.trans httrace
  have hboth := hwrite.trans hclose
  rw [htph, htfb, State.begun_fb, hafb, State.begun_fb, hfb] at hboth
  refine ⟨t, e, f, hboth, he.trans (congrArg Prim.tWrite ?_), hf, hhandle, ?_⟩
  · rw [State.begun_fb, hfb, Memory.frame_nil]
  · rw [← hwrite.devIndex]
    exact hdev

/-- From `D1_FLUSH`, the flush and the clear, two steps, to the assert of a final preamble in a build with one, to the final frame in any other
(R172, R173, log entry 25). -/
theorem progress_clear {n : Nat} (hp : s.atPhase .d1Flush) (ht : s.seqTurns (n + 2)) :
    ∃ t, Progress 2 n s t (if s.params.finalPreamble then .xpBreak else .x2ZeroWrite) [] [] := by
  obtain ⟨a, ha⟩ : ∃ a, Progress 1 (n + 1) s a .x1Clear s.fb [] :=
    ⟨_, .of_result (.flush hp.2) (State.placed_of_atPhase hp rfl) ht (by rw [hp.2]; decide) id (List.append_nil _).symm⟩
  obtain ⟨t, hc⟩ : ∃ t, Progress 1 n a t (if s.params.finalPreamble then .xpBreak else .x2ZeroWrite) [] [] := by
    rw [← ha.params]
    cases hf : a.params.finalPreamble
    · exact ⟨_, .of_result (.clear ha.phase hf) ha.placed ha.turns (by rw [ha.phase]; decide) id (List.append_nil _).symm⟩
    · exact ⟨_, .of_result (.clearFinal ha.phase hf) ha.placed ha.turns (by rw [ha.phase]; decide) id (List.append_nil _).symm⟩
  exact ⟨t, ha.trans hc⟩

end

/-- Settles O55: the flush and the clear, the final preamble in a build with one, then the final frame and the release. -/
theorem shutdownCompletes : Obligations.ShutdownCompletes := by
  intro s hp
  refine ⟨fun hf ht => ?plain, fun hf ht hwake hlength hdraws => ?preamble⟩
  case plain =>
    obtain ⟨a, ha⟩ := progress_clear (n := 2) hp ht
    rw [hf] at ha
    obtain ⟨t, e, f, hend, he, hfop, hhandle, hdev⟩ := progress_release ha.placed ha.phase ha.turns ha.buffer
    have hall := ha.trans hend
    refine ⟨t, e, f, hall.run, hall.atPhase, hhandle, ha.devIndex ▸ hdev, fun k => ?_, hall.trace, he, hfop, hall.cq, hall.rq⟩
    rw [hall.buffer]
    rfl
  case preamble =>
    have hd : GoodDraws s.params 8 s.draws := ⟨hlength, hdraws⟩
    obtain ⟨a, ha⟩ := progress_clear (n := 6) hp ht
    rw [hf] at ha
    have hda : GoodDraws a.params 6 a.draws := by
      rw [ha.params, ha.draws]
      exact GoodDraws.drop hd
    obtain ⟨b, t₃, t₅, hb, -, -⟩ :=
      progress_preamble (n := 2) (m := 2) preamblePhases_final ha.placed ha.phase ha.turns (ha.asleep hwake) hda
    rw [ha.buffer] at hb
    obtain ⟨t, e, f, hend, he, hfop, hhandle, hdev⟩ := progress_release hb.placed hb.phase hb.turns hb.buffer
    have hall := (ha.trans hb).trans hend
    refine ⟨t, ⟨t₃, .tSetBreak, .ok⟩, ⟨t₅, .tClearBreak, .ok⟩, e, f, hall.run, hall.atPhase, hhandle, ?_, fun k => ?_, hall.trace, rfl, rfl,
      he, hfop, hall.cq, hall.rq⟩
    · rwa [hb.devIndex, ha.devIndex] at hdev
    · rw [hall.buffer]
      rfl

end Sys2Proof.Machine
end
